-- ==== Sys2Proof/Word.lean ====
section
/-! DEFINITION. The word types of BIP38C: bytes, byte strings, fixed buffers, addresses, port selectors,
and the three formats in which the spec numbers what the machine is told to do (30 R90, R101, R102; 20 R61). -/

namespace Sys2Proof

/-- An unsigned 8-bit value (00_scope R9, R10). -/
abbrev Byte := BitVec 8

/-- A finite byte string, byte 0 first (R9). -/
abbrev Bytes := List Byte

/-- A buffer register of `n` bytes; index `i` is byte `i`, the first handed over being byte 0 (R9, R67). -/
abbrev Buf (n : Nat) := Vector Byte n

/-- A host address, 9 bits: 0x000 to 0x1FF (R60, R68). -/
abbrev Addr := BitVec 9

/-- A port selector PORTSEL5: bits 4:1 are PID, bit 0 is DIR (R101). -/
abbrev Selector := BitVec 5

/-- One ASCII character, as the ports that answer text give it: "every byte < 0x80" (R102, R133). -/
abbrev Ascii := BitVec 7

/-- The all-zero buffer (R56: "every buffer is all 0x00"). -/
def Buf.zero (n : Nat) : Buf n := Vector.replicate n 0

/-- A port request as it is written down: the selector and the request's fields, each a byte string that carries its
own length (R101, R102). -/
structure PortWord where
  selector : Selector
  fields : List Bytes
  deriving DecidableEq, Repr

/-- What the machine can be handed to execute, in the three formats of the opcode table. -/
inductive FetchWord where
  /-- format CMD8: the byte written to CMD (R90) -/
  | cmd8 (v : Byte)
  /-- format PORTSEL5: a request the sequencer sends to a capability port (R101, R102) -/
  | portsel (w : PortWord)
  /-- format HOSTACC: bit 17 is the direction (1 = write), bits 16:8 the address, bits 7:0 the data byte -/
  | hostacc (w : BitVec 18)
  deriving DecidableEq, Repr

end Sys2Proof
end

