-- ==== Sys2Proof/Config.lean ====
section
/-! DEFINITION. What one BIP38C fixes: the constants of R7, and the parameters R8 leaves open (the strap CAP and the
ten port functions), as opaque constants of which nothing can be proved but their types (DESIGN CHOICE, log entry 1).
The machine is written over any `Capabilities`; `Config.attached` are those of the chip. -/

namespace Sys2Proof

/-- The text a B58ENC port answers: 1 to 64 ASCII characters (R102, R135). The bound is in the type (DESIGN CHOICE,
log entry 7): `last` is the length less one. -/
structure B58Text where
  last : Fin 64
  chars : Vector Ascii 64
  deriving DecidableEq, Repr, Inhabited

/-- The parameters of one BIP38C (R8, R13): the strap and the ten functions of the nine ports. Each port function is a
total function of its arguments alone. -/
structure Capabilities where
  /-- the strap CAP: bit k = 1 when port k is attached (R33) -/
  cap : BitVec 9
  /-- AES256_ENC(key, block) (R122) -/
  aes256Enc : Buf 32 → Buf 16 → Buf 16
  /-- AES256_DEC(key, block) (R123) -/
  aes256Dec : Buf 32 → Buf 16 → Buf 16
  /-- SHA256D(msg) (R125) -/
  sha256d : Bytes → Buf 32
  /-- scrypt(N, r, p, password, salt), 64 bytes; the machine asks it at `Config.scryptN`, `Config.scryptR` and
  `Config.scryptP` alone (R127) -/
  scrypt : Nat → Nat → Nat → Bytes → Buf 4 → Buf 64
  /-- NFC8(text) for a text that is not empty (R129) -/
  nfc8 : Bytes → Bytes
  /-- ECPUB(priv): the uncompressed public key, or `none` for Invalid (R131) -/
  ecpub : Buf 32 → Option Bytes
  /-- ECCOMP(pub) (R132) -/
  eccomp : Bytes → Bytes
  /-- ADDRESS(pub) (R133) -/
  address : Bytes → List Ascii
  /-- B58ENC(blob) (R135) -/
  b58enc : Buf 43 → B58Text
  /-- B58DEC43(str) for a string that is not empty; `none` is Reject (R136) -/
  b58dec43 : Bytes → Option (Buf 43)

/-- SCRYPT_N, the work factor (R7). -/
def Config.scryptN : Nat := 16384
/-- SCRYPT_R (R7). -/
def Config.scryptR : Nat := 8
/-- SCRYPT_P (R7). -/
def Config.scryptP : Nat := 8

/-- All nine ports attached (R8, R255). -/
def Config.capAll : BitVec 9 := 0x1FF

/-- The strap of the chip: an open parameter (R8, R33). -/
opaque Config.cap : BitVec 9
/-- The AES port, encrypt direction: an open parameter (R8, R122). -/
opaque Config.aes256Enc : Buf 32 → Buf 16 → Buf 16
/-- The AES port, decrypt direction: an open parameter (R8, R123). -/
opaque Config.aes256Dec : Buf 32 → Buf 16 → Buf 16
/-- The SHA256D port: an open parameter (R8, R125). -/
opaque Config.sha256d : Bytes → Buf 32
/-- The SCRYPT port: an open parameter (R8, R127). -/
opaque Config.scrypt : Nat → Nat → Nat → Bytes → Buf 4 → Buf 64
/-- The NFC8 port: an open parameter (R8, R129). -/
opaque Config.nfc8 : Bytes → Bytes
/-- The ECPUB port: an open parameter (R8, R131). -/
opaque Config.ecpub : Buf 32 → Option Bytes
/-- The ECCOMP port: an open parameter (R8, R132). -/
opaque Config.eccomp : Bytes → Bytes
/-- The ADDRESS port: an open parameter (R8, R133). -/
opaque Config.address : Bytes → List Ascii
/-- The B58ENC port: an open parameter (R8, R135). -/
opaque Config.b58enc : Buf 43 → B58Text
/-- The B58DEC43 port: an open parameter (R8, R136). -/
opaque Config.b58dec43 : Bytes → Option (Buf 43)

/-- The parameters of the chip the model's `exec` and `step` run on. -/
def Config.attached : Capabilities where
  cap := Config.cap
  aes256Enc := Config.aes256Enc
  aes256Dec := Config.aes256Dec
  sha256d := Config.sha256d
  scrypt := Config.scrypt
  nfc8 := Config.nfc8
  ecpub := Config.ecpub
  eccomp := Config.eccomp
  address := Config.address
  b58enc := Config.b58enc
  b58dec43 := Config.b58dec43

end Sys2Proof
end

