-- ==== Sys2Proof/Machine/Buffers.lean ====
section
/-! DEFINITION. Byte strings and buffers: slices, overwriting a slice, one byte in and out, and the passage between a
buffer and the byte string it holds (R9, R11, R67). -/

namespace Sys2Proof

/-- Byte `i` of a buffer; 0x00 past its end. -/
def Buf.get {n : Nat} (v : Buf n) (i : Nat) : Byte := if h : i < n then v[i] else 0

/-- The buffer with byte `i` replaced; unchanged when `i` is past its end. -/
def Buf.put {n : Nat} (v : Buf n) (i : Nat) (b : Byte) : Buf n := if h : i < n then v.set i b else v

/-- The bytes `v[off .. off+len-1]` as a buffer (R9). -/
def Buf.slice {n : Nat} (v : Buf n) (off len : Nat) : Buf len := Vector.ofFn fun i => Buf.get v (off + i)

/-- `v[off .. off+m-1] <- src` (R11). -/
def Buf.splice {n m : Nat} (v : Buf n) (off : Nat) (src : Buf m) : Buf n :=
  Vector.ofFn fun i => if off ≤ i.val ∧ i.val < off + m then Buf.get src (i.val - off) else v[i]

/-- The byte string a buffer holds, byte 0 first. -/
def Buf.bytes {n : Nat} (v : Buf n) : Bytes := v.toList

/-- The buffer of `n` bytes that begins with the byte string; the bytes past its end are 0x00. -/
def Buf.ofBytes (n : Nat) (l : Bytes) : Buf n := Vector.ofFn fun i => l.getD i 0

/-- The first four bytes of a digest (R9 `first4`, R92 `H[0..3]`). -/
def Buf.first4 {n : Nat} (v : Buf n) : Buf 4 := Buf.slice v 0 4

/-- The byte of an ASCII character. -/
def Ascii.byte (c : Ascii) : Byte := c.setWidth 8

end Sys2Proof
end

