-- ==== Sys2Proof/Syntax.lean ====
section
/-! DEFINITION. The instructions: one constructor for each of the 22 rows of spec/opcode_table.json. -/

namespace Sys2Proof

/-- One constructor per row of the opcode table. The seven ILLEGAL rows carry the command byte itself, except the
row 0x00 whose byte is fixed; a port row carries the fields of its request (R102). -/
inductive Instr where
  -- format CMD8 (R90): the byte the host writes to CMD
  /-- 0x01, encrypt (R160) -/
  | enc
  /-- 0x02, decrypt (R190) -/
  | dec
  /-- 0x03, return to the reset state (R232) -/
  | clr
  /-- 0x00, illegal (R233) -/
  | illegal00
  /-- 0x04 to 0x07, illegal (R233) -/
  | illegal04 (v : Byte)
  /-- 0x08 to 0x0F, illegal (R233) -/
  | illegal08 (v : Byte)
  /-- 0x10 to 0x1F, illegal (R233) -/
  | illegal10 (v : Byte)
  /-- 0x20 to 0x3F, illegal (R233) -/
  | illegal20 (v : Byte)
  /-- 0x40 to 0x7F, illegal (R233) -/
  | illegal40 (v : Byte)
  /-- 0x80 to 0xFF, illegal (R233) -/
  | illegal80 (v : Byte)
  -- format PORTSEL5 (R101, R102): a request of the sequencer
  /-- AES.ENC: encrypt one block (R122) -/
  | aesEnc (key : Buf 32) (block : Buf 16)
  /-- AES.DEC: decrypt one block (R123) -/
  | aesDec (key : Buf 32) (block : Buf 16)
  /-- SHA256D: double SHA-256 (R125) -/
  | sha256d (msg : Bytes)
  /-- SCRYPT: stretch a password and a salt to 64 bytes (R127) -/
  | scrypt (password : Bytes) (salt : Buf 4)
  /-- NFC8: normalise a passphrase (R129) -/
  | nfc8 (text : Bytes)
  /-- ECPUB: derive a public key (R131) -/
  | ecpub (priv : Buf 32)
  /-- ECCOMP: compress a public key (R132) -/
  | eccomp (pub : Bytes)
  /-- ADDRESS: public key to address string (R133) -/
  | address (pub : Bytes)
  /-- B58ENC: 43 bytes to base-58 text (R135) -/
  | b58enc (blob : Buf 43)
  /-- B58DEC43: base-58 text to exactly 43 bytes (R136) -/
  | b58dec43 (str : Bytes)
  -- format HOSTACC (R61): a host access
  /-- WR a, v: host write (R234) -/
  | wr (a : Addr) (v : Byte)
  /-- RD a: host read (R235) -/
  | rd (a : Addr)
  deriving DecidableEq, Repr

end Sys2Proof
end

