-- ==== Sys2Proof/WellFormed.lean ====
section
/-! DEFINITION. Which terms of `Instr` the encoding admits: an ILLEGAL row's byte must match its row's mask, and a
variable-length request field must be within the bound its format gives (R102). -/

namespace Sys2Proof

/-- The byte `v` belongs to the opcode-table row with this mask and match. -/
def rowMatches (mask pattern v : Byte) : Bool := v &&& mask == pattern

/-- An instruction the encoding admits. Every other bound of R102 (32, 16, 4, 43 bytes; 9-bit addresses) stands in
the types of the fields. -/
def Instr.wf : Instr → Bool
  | .enc => true
  | .dec => true
  | .clr => true
  | .illegal00 => true
  | .illegal04 v => rowMatches 0xFC 0x04 v
  | .illegal08 v => rowMatches 0xF8 0x08 v
  | .illegal10 v => rowMatches 0xF0 0x10 v
  | .illegal20 v => rowMatches 0xE0 0x20 v
  | .illegal40 v => rowMatches 0xC0 0x40 v
  | .illegal80 v => rowMatches 0x80 0x80 v
  | .aesEnc _ _ => true
  | .aesDec _ _ => true
  | .sha256d _ => true
  | .scrypt _ _ => true
  | .nfc8 text => text.length ≤ 255
  | .ecpub _ => true
  | .eccomp _ => true
  | .address _ => true
  | .b58enc _ => true
  | .b58dec43 str => str.length ≤ 64
  | .wr _ _ => true
  | .rd _ => true

end Sys2Proof
end

