-- ==== Sys2Proof/Decode.lean ====
section
/-! DEFINITION. Decoding the three formats (R90, R101, R102, R61), total and rejecting by name, and the encoder. -/

namespace Sys2Proof

/-- Why a word is no instruction. Only a port word can be refused: the command byte and the host access are total. -/
inductive DecodeError where
  /-- a selector other than the ten of R101: "never generated by the sequencer" -/
  | reservedSelector (selector : Selector)
  /-- the fields are not those R102 gives the selector (their number, or the length of one) -/
  | badFields (selector : Selector)
  deriving DecidableEq, Repr

/-- The command byte (R90): total, every one of the 256 values has a row. -/
def decodeCommand (v : Byte) : Instr :=
  if v = 0x01 then .enc
  else if v = 0x02 then .dec
  else if v = 0x03 then .clr
  else if v = 0x00 then .illegal00
  else if rowMatches 0xFC 0x04 v then .illegal04 v
  else if rowMatches 0xF8 0x08 v then .illegal08 v
  else if rowMatches 0xF0 0x10 v then .illegal10 v
  else if rowMatches 0xE0 0x20 v then .illegal20 v
  else if rowMatches 0xC0 0x40 v then .illegal40 v
  else .illegal80 v

/-- A port request (R101, R102): PID in bits 4:1, DIR in bit 0, and the fields of the operation. -/
def decodePort (w : PortWord) : Except DecodeError Instr :=
  match w.selector.toNat, w.fields with
  | 0b00000, [key, block] =>
    if key.length = 32 ∧ block.length = 16 then .ok (.aesEnc (Buf.ofBytes 32 key) (Buf.ofBytes 16 block))
    else .error (.badFields w.selector)
  | 0b00001, [key, block] =>
    if key.length = 32 ∧ block.length = 16 then .ok (.aesDec (Buf.ofBytes 32 key) (Buf.ofBytes 16 block))
    else .error (.badFields w.selector)
  | 0b00010, [msg] => .ok (.sha256d msg)
  | 0b00100, [password, salt] =>
    if salt.length = 4 then .ok (.scrypt password (Buf.ofBytes 4 salt)) else .error (.badFields w.selector)
  | 0b00110, [text] => if text.length ≤ 255 then .ok (.nfc8 text) else .error (.badFields w.selector)
  | 0b01000, [priv] =>
    if priv.length = 32 then .ok (.ecpub (Buf.ofBytes 32 priv)) else .error (.badFields w.selector)
  | 0b01010, [pub] => .ok (.eccomp pub)
  | 0b01100, [pub] => .ok (.address pub)
  | 0b01110, [blob] =>
    if blob.length = 43 then .ok (.b58enc (Buf.ofBytes 43 blob)) else .error (.badFields w.selector)
  | 0b10000, [str] => if str.length ≤ 64 then .ok (.b58dec43 str) else .error (.badFields w.selector)
  | sel, _ =>
    if sel ∈ [0b00000, 0b00001, 0b00010, 0b00100, 0b00110, 0b01000, 0b01010, 0b01100, 0b01110, 0b10000]
    then .error (.badFields w.selector) else .error (.reservedSelector w.selector)

/-- A host access (R61): direction, address and, for a write, the data byte; a read ignores the data field. -/
def decodeAccess (w : BitVec 18) : Instr :=
  if w.getLsbD 17 then .wr (w.extractLsb' 8 9) (w.extractLsb' 0 8) else .rd (w.extractLsb' 8 9)

/-- The decoder, total over the three formats. -/
def decode : FetchWord → Except DecodeError Instr
  | .cmd8 v => .ok (decodeCommand v)
  | .portsel w => decodePort w
  | .hostacc w => .ok (decodeAccess w)

/-- The word of a host access: direction, address, data byte (the packing of the opcode table). -/
def accessWord (direction : BitVec 1) (a : Addr) (v : Byte) : BitVec 18 :=
  direction.setWidth 18 <<< 17 ||| a.setWidth 18 <<< 8 ||| v.setWidth 18

/-- The encoder, from the same tables; the unused data field of a read is 0. -/
def encode : Instr → FetchWord
  | .enc => .cmd8 0x01
  | .dec => .cmd8 0x02
  | .clr => .cmd8 0x03
  | .illegal00 => .cmd8 0x00
  | .illegal04 v => .cmd8 v
  | .illegal08 v => .cmd8 v
  | .illegal10 v => .cmd8 v
  | .illegal20 v => .cmd8 v
  | .illegal40 v => .cmd8 v
  | .illegal80 v => .cmd8 v
  | .aesEnc key block => .portsel ⟨0b00000, [Buf.bytes key, Buf.bytes block]⟩
  | .aesDec key block => .portsel ⟨0b00001, [Buf.bytes key, Buf.bytes block]⟩
  | .sha256d msg => .portsel ⟨0b00010, [msg]⟩
  | .scrypt password salt => .portsel ⟨0b00100, [password, Buf.bytes salt]⟩
  | .nfc8 text => .portsel ⟨0b00110, [text]⟩
  | .ecpub priv => .portsel ⟨0b01000, [Buf.bytes priv]⟩
  | .eccomp pub => .portsel ⟨0b01010, [pub]⟩
  | .address pub => .portsel ⟨0b01100, [pub]⟩
  | .b58enc blob => .portsel ⟨0b01110, [Buf.bytes blob]⟩
  | .b58dec43 str => .portsel ⟨0b10000, [str]⟩
  | .wr a v => .hostacc (accessWord 1 a v)
  | .rd a => .hostacc (accessWord 0 a 0)

/-- The request of selector `sel` whose every field is zero: fixed fields of zeros, variable fields empty. This is what
the opcode table's PORTSEL5 word names, the table giving the fields no bits. -/
def zeroRequest (sel : Selector) : PortWord :=
  match sel.toNat with
  | 0b00000 => ⟨sel, [Buf.bytes (Buf.zero 32), Buf.bytes (Buf.zero 16)]⟩
  | 0b00001 => ⟨sel, [Buf.bytes (Buf.zero 32), Buf.bytes (Buf.zero 16)]⟩
  | 0b00100 => ⟨sel, [[], Buf.bytes (Buf.zero 4)]⟩
  | 0b01000 => ⟨sel, [Buf.bytes (Buf.zero 32)]⟩
  | 0b01110 => ⟨sel, [Buf.bytes (Buf.zero 43)]⟩
  | _ => ⟨sel, [[]]⟩

/-- The word the opcode table numbers by `w` in a format of `nbits` bits: 8 is a command byte, 5 a port selector (with
zero fields), 18 (24 in whole bytes) a host access. DESIGN CHOICE, log entries 3 and 4. -/
def tableWord (nbits w : Nat) : Option FetchWord :=
  if nbits = 8 then if w < 256 then some (.cmd8 (BitVec.ofNat 8 w)) else none
  else if nbits = 5 then if w < 32 then some (.portsel (zeroRequest (BitVec.ofNat 5 w))) else none
  else if nbits = 18 ∨ nbits = 24 then if w < 262144 then some (.hostacc (BitVec.ofNat 18 w)) else none
  else none

/-- The instruction the decoder reads from a word of the opcode table. -/
def decodeTableWord (nbits w : Nat) : Option Instr :=
  match tableWord nbits w with
  | none => none
  | some word =>
    match decode word with
    | .ok i => some i
    | .error _ => none

end Sys2Proof
end

