-- ==== Sys2Proof/Machine/State.lean ====
section
/-! DEFINITION. The state of BIP38C: the four register classes of R20, the model's own bookkeeping (marked so), the
reasons a step can stop, and the state after reset (R56, R290). -/

namespace Sys2Proof.Machine

/-- PHASE (R40): the sequencer's program counter. `Phase.code` gives the byte of each. -/
inductive Phase where
  | idle
  | eStart | eFlag | eNorm | ePub | eComp | eAddr | eSalt | eKdf
  | eXor1 | eAes1 | eXor2 | eAes2 | eFrame | eCsum | eB58 | eDone
  | dStart | dB58 | dCsum | dMode | dSplit | dNorm | dKdf | dAes1
  | dXor1 | dAes2 | dXor2 | dPub | dComp | dAddr | dVerify | dDone
  deriving DecidableEq, Repr

/-- OP (R41), a 2-bit register of three values. -/
inductive Op where
  | none
  | enc
  | dec
  deriving DecidableEq, Repr

/-- The error kinds of R250. `ErrorKind.code` gives the byte of each. -/
inductive ErrorKind where
  | invalidKeyFormat
  | malformedCiphertext
  | wrongPassphrase
  | unsupportedMode
  | capabilityUnavailable
  | illegalCommand
  deriving DecidableEq, Repr

/-- Class IN: the operands (R21 to R25). -/
structure ClassIn where
  /-- CTRL (R23): bit 0 is COMP_IN, bits 7:1 reserved -/
  ctrl : Byte
  /-- PLEN (R24) -/
  plen : Byte
  /-- ELEN_IN (R25) -/
  elenIn : Byte
  /-- KEY_IN (R22) -/
  keyIn : Buf 32
  /-- ESTR_IN (R25) -/
  estrIn : Buf 64
  /-- PASS (R24) -/
  pass : Buf 255
  deriving DecidableEq, Repr

/-- Class OUT: the results (R26 to R29). -/
structure ClassOut where
  /-- KEY_OUT (R27) -/
  keyOut : Buf 32
  /-- OUT_FLAGS (R28): bit 0 is COMP_OUT -/
  outFlags : Byte
  /-- ESTR_OUT (R29) -/
  estrOut : Buf 64
  /-- OUT_ELEN (R29) -/
  outElen : Byte
  deriving DecidableEq, Repr

/-- Class INT: the sequencer's registers (R40 to R53, R58). The lengths NPLEN, PUBLEN, ALEN and SLEN are the lengths
of their lists. -/
structure ClassInt where
  /-- PHASE (R40) -/
  phase : Phase
  /-- OP (R41) -/
  op : Op
  /-- FLAGB (R42) -/
  flagb : Byte
  /-- COMP (R42) -/
  comp : Bool
  /-- NP (R43) -/
  np : Bytes
  /-- PUB (R44) -/
  pub : Bytes
  /-- ADDR (R45) -/
  addr : Bytes
  /-- SALT (R46) -/
  salt : Buf 4
  /-- DK (R47) -/
  dk : Buf 64
  /-- X (R48) -/
  x : Buf 16
  /-- EH1 (R49) -/
  eh1 : Buf 16
  /-- EH2 (R49) -/
  eh2 : Buf 16
  /-- K (R50) -/
  k : Buf 32
  /-- BLOB (R51) -/
  blob : Buf 43
  /-- H (R52) -/
  h : Buf 32
  /-- S (R58) -/
  s : Bytes
  /-- The MODEL's own field: the answer of the port request of the sequencer step in hand (R53, R120); `none` when there
  is none, or when the port answered Invalid or Reject. DESIGN CHOICE, log entry 5. -/
  resp : Option Bytes
  deriving DecidableEq, Repr

/-- One entry of the port trace (R120): the request and its answer (`none`: Invalid or Reject). -/
structure PortEvent where
  request : PortWord
  answer : Option Bytes
  deriving DecidableEq, Repr

/-- What can happen next around the block (R12): the host makes an access, the sequencer is given its turn, reset is
asserted. -/
inductive HostEvent where
  /-- one host access, in the packing of format HOSTACC -/
  | access (w : BitVec 18)
  /-- the sequencer takes one step before the host does anything more -/
  | turn
  /-- the reset input is asserted (R290, R292) -/
  | reset
  deriving DecidableEq, Repr

/-- The MODEL's own view of the host: what it does next, and the bytes its reads have returned. -/
structure HostSide where
  /-- what happens next, in order; with nothing on it the sequencer goes on by itself. DESIGN CHOICE, log entry 2. -/
  agenda : List HostEvent
  /-- the bytes host reads have returned, oldest first (R61). DESIGN CHOICE, log entry 6. -/
  reads : List Byte
  deriving DecidableEq, Repr

/-- The state of the machine. -/
structure State where
  /-- class IN -/
  cin : ClassIn
  /-- class OUT -/
  cout : ClassOut
  /-- STATUS (R31): bit 0 BUSY, bit 1 DONE, bit 2 ERR -/
  status : Byte
  /-- ERRCODE (R32) -/
  errcode : Byte
  /-- class INT -/
  cint : ClassInt
  /-- The MODEL's own field: the port trace of the command in hand or last completed (R120). DESIGN CHOICE, log
  entry 5. -/
  trace : List PortEvent
  /-- The MODEL's own field: the host. DESIGN CHOICE, log entries 2 and 6. -/
  host : HostSide
  deriving DecidableEq, Repr

/-- Faults: there is none. No access of any kind raises a fault (R65, R276), and an error of a command is a completion
with a next state (R262). Safe: nothing is stopped. -/
inductive Fault where
  deriving DecidableEq, Repr

/-- Refusals: why the model gives no next state. -/
inductive Refusal where
  /-- raised by an arm of `exec` that has no meaning yet; there is none. Safe: the model stops. -/
  | notModelled (mnemonic : String)
  /-- raised by `runWord` when the word fetched is no instruction: a port selector that the sequencer never generates
  (R101), or fields R102 does not give. The sequencer sends no such word, so no step raises it. Safe: the model stops. -/
  | undecodable (reason : DecodeError)
  deriving DecidableEq, Repr

/-- The answer of an instruction or of a step. -/
abbrev Outcome := Host.Outcome State Fault Refusal

/-- Class IN all-zero (R56). -/
def ClassIn.zero : ClassIn where
  ctrl := 0x00
  plen := 0x00
  elenIn := 0x00
  keyIn := Buf.zero 32
  estrIn := Buf.zero 64
  pass := Buf.zero 255

/-- Class OUT all-zero (R56). -/
def ClassOut.zero : ClassOut where
  keyOut := Buf.zero 32
  outFlags := 0x00
  estrOut := Buf.zero 64
  outElen := 0x00

/-- Class INT all-zero: PHASE = IDLE, OP = 0, the strings empty (R56). -/
def ClassInt.zero : ClassInt where
  phase := .idle
  op := .none
  flagb := 0x00
  comp := false
  np := []
  pub := []
  addr := []
  salt := Buf.zero 4
  dk := Buf.zero 64
  x := Buf.zero 16
  eh1 := Buf.zero 16
  eh2 := Buf.zero 16
  k := Buf.zero 32
  blob := Buf.zero 43
  h := Buf.zero 32
  s := []
  resp := none

/-- The machine right after reset (R56, R290): every register zero; nothing on the agenda, nothing read (DESIGN
CHOICE, log entry 17). -/
def State.reset : State where
  cin := ClassIn.zero
  cout := ClassOut.zero
  status := 0x00
  errcode := 0x00
  cint := ClassInt.zero
  trace := []
  host := { agenda := [], reads := [] }

end Sys2Proof.Machine
end

