-- ==== Sys2Proof/Machine/Flags.lean ====
section
/-! DEFINITION. The coded registers and bits: PHASE and OP (R40, R41), ERRCODE (R250), the STATUS bits (R31), the
reserved bits of CTRL and OUT_FLAGS (R23, R28), and the flag byte (R98, R162). -/

namespace Sys2Proof.Machine

/-- The byte of PHASE (R40). -/
def Phase.code : Phase → Byte
  | .idle => 0x00
  | .eStart => 0x10 | .eFlag => 0x11 | .eNorm => 0x12 | .ePub => 0x13
  | .eComp => 0x14 | .eAddr => 0x15 | .eSalt => 0x16 | .eKdf => 0x17
  | .eXor1 => 0x18 | .eAes1 => 0x19 | .eXor2 => 0x1A | .eAes2 => 0x1B
  | .eFrame => 0x1C | .eCsum => 0x1D | .eB58 => 0x1E | .eDone => 0x1F
  | .dStart => 0x20 | .dB58 => 0x21 | .dCsum => 0x22 | .dMode => 0x23
  | .dSplit => 0x24 | .dNorm => 0x25 | .dKdf => 0x26 | .dAes1 => 0x27
  | .dXor1 => 0x28 | .dAes2 => 0x29 | .dXor2 => 0x2A | .dPub => 0x2B
  | .dComp => 0x2C | .dAddr => 0x2D | .dVerify => 0x2E | .dDone => 0x2F

/-- The value of OP (R41). -/
def Op.code : Op → BitVec 2
  | .none => 0
  | .enc => 1
  | .dec => 2

/-- The value OP has in each phase: redundant with the high nibble of PHASE (R41). -/
def Phase.op : Phase → Op
  | .idle => .none
  | .eStart | .eFlag | .eNorm | .ePub | .eComp | .eAddr | .eSalt | .eKdf
  | .eXor1 | .eAes1 | .eXor2 | .eAes2 | .eFrame | .eCsum | .eB58 | .eDone => .enc
  | .dStart | .dB58 | .dCsum | .dMode | .dSplit | .dNorm | .dKdf | .dAes1
  | .dXor1 | .dAes2 | .dXor2 | .dPub | .dComp | .dAddr | .dVerify | .dDone => .dec

/-- The code of an error kind (R250). -/
def ErrorKind.code : ErrorKind → Byte
  | .invalidKeyFormat => 0x01
  | .malformedCiphertext => 0x02
  | .wrongPassphrase => 0x03
  | .unsupportedMode => 0x04
  | .capabilityUnavailable => 0x05
  | .illegalCommand => 0x06

/-- STATUS while a command runs: BUSY (R31, R91). -/
def statusBusy : Byte := 0x01
/-- STATUS after a completion without error: DONE (R263). -/
def statusDone : Byte := 0x02
/-- STATUS after a completion with error: DONE and ERR (R262). -/
def statusError : Byte := 0x06

/-- STATUS.BUSY (R31). -/
def State.busy (s : State) : Bool := s.status.getLsbD 0
/-- STATUS.DONE (R31). -/
def State.done (s : State) : Bool := s.status.getLsbD 1
/-- STATUS.ERR (R31). -/
def State.err (s : State) : Bool := s.status.getLsbD 2

/-- The bits of STATUS that are not reserved (R31). -/
def statusMask : Byte := 0x07
/-- The bits of CTRL that are not reserved (R23). -/
def ctrlMask : Byte := 0x01
/-- The bits of OUT_FLAGS that are not reserved (R28). -/
def outFlagsMask : Byte := 0x01

/-- CTRL.COMP_IN (R23). -/
def State.compIn (s : State) : Bool := s.cin.ctrl.getLsbD 0

/-- OUT_FLAGS <- 0000000 ‖ COMP (R209). -/
def outFlagsOf (comp : Bool) : Byte := if comp then 0x01 else 0x00

/-- FLAG_COMPRESSED (R7, R98). -/
def flagCompressed : Byte := 0xE0
/-- FLAG_UNCOMPRESSED (R7, R98). -/
def flagUncompressed : Byte := 0xC0

/-- The flag byte of a CompressionFlag (R162). -/
def flagByte (comp : Bool) : Byte := if comp then flagCompressed else flagUncompressed

/-- The flag byte decoded as a whole (R98): `none` for every value but the two. -/
def compOfFlag (b : Byte) : Option Bool :=
  if b = flagUncompressed then some false else if b = flagCompressed then some true else none

end Sys2Proof.Machine
end

