-- ==== Sys2Proof/Machine/Operands.lean ====
section
/-! DEFINITION. The operand slices of R92: what the phases take of class IN and of the internal registers, and nothing
sign- or zero-extended, scaled or shifted. -/

namespace Sys2Proof.Machine

/-- PASS[0..PLEN-1], the passphrase operand (R24). -/
def State.passphrase (s : State) : Bytes := (Buf.bytes s.cin.pass).take s.cin.plen.toNat

/-- ESTR_IN[0..ELEN_IN-1], the string operand of DEC (R25), for ELEN_IN at most 64. -/
def State.encrypted (s : State) : Bytes := (Buf.bytes s.cin.estrIn).take s.cin.elenIn.toNat

/-- ELEN_IN names a string the buffer cannot hold (R25, R193). -/
def State.elenTooLong (s : State) : Bool := 64 < s.cin.elenIn.toNat

/-- KEY_IN[0..15]: "the private key's first 16 bytes" (R92). -/
def State.keyFirst (s : State) : Buf 16 := Buf.slice s.cin.keyIn 0 16
/-- KEY_IN[16..31]: "the private key's second 16 bytes" (R92). -/
def State.keySecond (s : State) : Buf 16 := Buf.slice s.cin.keyIn 16 16

/-- SPLIT64: DK[0..31], `derivedhalf1`, the XOR mask (R141). -/
def derivedHalf1 (dk : Buf 64) : Buf 32 := Buf.slice dk 0 32
/-- SPLIT64: DK[32..63], `derivedhalf2`, the AES key (R141). -/
def derivedHalf2 (dk : Buf 64) : Buf 32 := Buf.slice dk 32 32
/-- SPLIT64: DK[0..15], the mask of the first key half (R141). -/
def maskFirst (dk : Buf 64) : Buf 16 := Buf.slice dk 0 16
/-- SPLIT64: DK[16..31], the mask of the second key half (R141). -/
def maskSecond (dk : Buf 64) : Buf 16 := Buf.slice dk 16 16

/-- BLOB[0..38], BODY (R92, R97). -/
def blobBody (blob : Buf 43) : Buf 39 := Buf.slice blob 0 39
/-- BLOB[39..42], the checksum (R92, R97). -/
def blobCsum (blob : Buf 43) : Buf 4 := Buf.slice blob 39 4
/-- BLOB[0], version byte 0 (R96). -/
def blobVersion0 (blob : Buf 43) : Byte := Buf.get blob 0
/-- BLOB[1], version byte 1 (R96). -/
def blobVersion1 (blob : Buf 43) : Byte := Buf.get blob 1
/-- BLOB[2], the flag byte (R96, R98). -/
def blobFlag (blob : Buf 43) : Byte := Buf.get blob 2
/-- BLOB[3..6], the salt or `addresshash` (R96). -/
def blobSalt (blob : Buf 43) : Buf 4 := Buf.slice blob 3 4
/-- BLOB[7..22], encryptedhalf1 (R96). -/
def blobHalf1 (blob : Buf 43) : Buf 16 := Buf.slice blob 7 16
/-- BLOB[23..38], encryptedhalf2 (R96). -/
def blobHalf2 (blob : Buf 43) : Buf 16 := Buf.slice blob 23 16

end Sys2Proof.Machine
end

