-- ==== Sys2Proof/Machine/Operators.lean ====
section
/-! DEFINITION. The coordinator's own operators (R140 to R146). -/

namespace Sys2Proof.Machine

/-- XOR16 (R140): bytewise exclusive or. -/
def xor16 (a b : Buf 16) : Buf 16 := Vector.ofFn fun i => a[i] ^^^ b[i]

/-- Two 16-byte halves put together: `a ‖ b` (R190). -/
def join16 (a b : Buf 16) : Buf 32 := Buf.ofBytes 32 (Buf.bytes a ++ Buf.bytes b)

/-- The version bytes (R7, R99). -/
def version0 : Byte := 0x01
def version1 : Byte := 0x42

/-- FRAME39 (R142): `0x01 ‖ 0x42 ‖ flag ‖ salt ‖ eh1 ‖ eh2`. -/
def frame39 (flag : Byte) (salt : Buf 4) (eh1 eh2 : Buf 16) : Buf 39 :=
  Buf.ofBytes 39 ([version0, version1, flag] ++ Buf.bytes salt ++ Buf.bytes eh1 ++ Buf.bytes eh2)

/-- BLOB (R97): BODY and its 4-byte checksum. -/
def blobOf (body : Buf 39) (csum : Buf 4) : Buf 43 := Buf.ofBytes 43 (Buf.bytes body ++ Buf.bytes csum)

/-- What DEFRAME43 gives (R144). -/
structure Deframed where
  v0 : Byte
  v1 : Byte
  flag : Byte
  addresshash : Buf 4
  eh1 : Buf 16
  eh2 : Buf 16
  csum : Buf 4
  deriving DecidableEq, Repr

/-- DEFRAME43 (R144): wiring. -/
def deframe43 (blob : Buf 43) : Deframed where
  v0 := blobVersion0 blob
  v1 := blobVersion1 blob
  flag := blobFlag blob
  addresshash := blobSalt blob
  eh1 := blobHalf1 blob
  eh2 := blobHalf2 blob
  csum := blobCsum blob

/-- CSUM4 (R143): the first four bytes of SHA256D of BODY. -/
def csum4 (C : Capabilities) (body : Buf 39) : Buf 4 := Buf.first4 (C.sha256d (Buf.bytes body))

/-- ADDRHASH (R145): the first four bytes of SHA256D of the address's ASCII bytes. -/
def addrHash (C : Capabilities) (addr : Bytes) : Buf 4 := Buf.first4 (C.sha256d addr)

/-- EQ (R146): true when every byte is equal. -/
def eqBytes {n : Nat} (a b : Buf n) : Bool := Buf.bytes a == Buf.bytes b

/-- The version-byte test of D_MODE (R99, R196). -/
def versionOk (blob : Buf 43) : Bool := blobVersion0 blob == version0 && blobVersion1 blob == version1

end Sys2Proof.Machine
end

