-- ==== Sys2Proof/Machine/Ops.lean ====
section
/-! DEFINITION. The operations every meaning is made of: clearing a class, starting a command (R91), completing it with
an error (`raise`, R262: this hardware's exception) or without one (R263), reset (R290), the host's read view and its
write of a class-IN byte (R62, R63, R66), and the record of a port request (R120). -/

namespace Sys2Proof.Machine

/-- Completion with error, the effect of `raise e` (R262). Nothing is saved and control goes nowhere: the sequencer
idles. -/
def State.raise (s : State) (e : ErrorKind) : State :=
  { s with
    errcode := e.code
    cout := ClassOut.zero
    cin := ClassIn.zero
    cint := ClassInt.zero
    status := statusError }

/-- Completion without error (R263), after class OUT has been written. -/
def State.complete (s : State) : State :=
  { s with
    cin := ClassIn.zero
    cint := ClassInt.zero
    status := statusDone }

/-- The start actions common to every command (R91): class OUT, ERRCODE, STATUS.ERR and STATUS.DONE cleared. The port
trace is per command, so it starts anew. BUSY is 0 here, so STATUS becomes 0x00. That the trace is kept until here is
a DESIGN CHOICE (log entry 5). -/
def State.clearResult (s : State) : State :=
  { s with
    cout := ClassOut.zero
    errcode := 0x00
    status := 0x00
    trace := [] }

/-- Start of ENC or DEC (R91): OP, PHASE and BUSY set. -/
def State.begin (s : State) (op : Op) (phase : Phase) : State :=
  { s.clearResult with
    status := statusBusy
    cint := { s.cint with op := op, phase := phase } }

/-- Every register at its reset value (R232, R290); the host's own side is not the block's. -/
def State.toReset (s : State) : State := { State.reset with host := s.host }

/-- An illegal command (R233): the start actions, then `raise IllegalCommand`. -/
def State.illegalCommand (s : State) : State := s.clearResult.raise .illegalCommand

/-- CAP_LO = CAP[7:0] (R33). -/
def capLo (cap : BitVec 9) : Byte := cap.extractLsb' 0 8
/-- CAP_HI = 0000000 ‖ CAP[8] (R33). -/
def capHi (cap : BitVec 9) : Byte := (cap.extractLsb' 8 1).setWidth 8

/-- The byte the map of R66 gives for an address while BUSY = 0. -/
def State.mapByte (cap : BitVec 9) (s : State) (a : Addr) : Byte :=
  let n := a.toNat
  if n = 0x001 then s.status &&& statusMask
  else if n = 0x002 then s.errcode
  else if n = 0x003 then s.cin.ctrl &&& ctrlMask
  else if n = 0x004 then s.cin.plen
  else if n = 0x005 then s.cin.elenIn
  else if n = 0x006 then s.cout.outFlags &&& outFlagsMask
  else if n = 0x007 then s.cout.outElen
  else if n = 0x008 then capLo cap
  else if n = 0x009 then capHi cap
  else if 0x020 ≤ n ∧ n ≤ 0x03F then Buf.get s.cin.keyIn (n - 0x020)
  else if 0x040 ≤ n ∧ n ≤ 0x05F then Buf.get s.cout.keyOut (n - 0x040)
  else if 0x080 ≤ n ∧ n ≤ 0x0BF then Buf.get s.cin.estrIn (n - 0x080)
  else if 0x0C0 ≤ n ∧ n ≤ 0x0FF then Buf.get s.cout.estrOut (n - 0x0C0)
  else if 0x100 ≤ n ∧ n ≤ 0x1FE then Buf.get s.cin.pass (n - 0x100)
  else 0x00

/-- MemRead(a, 1) (R62), with the BUSY masking of R64. -/
def State.memRead (cap : BitVec 9) (s : State) (a : Addr) : Byte :=
  if s.busy then (if a = 0x001 then s.status &&& statusMask else 0x00) else s.mapByte cap a

/-- The addresses of class IN (R66). -/
def isClassIn (a : Addr) : Bool :=
  let n := a.toNat
  (0x003 ≤ n && n ≤ 0x005) || (0x020 ≤ n && n ≤ 0x03F) || (0x080 ≤ n && n ≤ 0x0BF) || (0x100 ≤ n && n ≤ 0x1FE)

/-- The byte a class-IN location keeps of the byte written: reserved bits of CTRL are forced to 0 (R63, R23). -/
def keptByte (a : Addr) (v : Byte) : Byte := if a = 0x003 then v &&& ctrlMask else v

/-- The write of a class-IN byte (R63); every other address ignores it (R65). -/
def ClassIn.write (c : ClassIn) (a : Addr) (v : Byte) : ClassIn :=
  let n := a.toNat
  if n = 0x003 then { c with ctrl := keptByte a v }
  else if n = 0x004 then { c with plen := v }
  else if n = 0x005 then { c with elenIn := v }
  else if 0x020 ≤ n ∧ n ≤ 0x03F then { c with keyIn := Buf.put c.keyIn (n - 0x020) v }
  else if 0x080 ≤ n ∧ n ≤ 0x0BF then { c with estrIn := Buf.put c.estrIn (n - 0x080) v }
  else if 0x100 ≤ n ∧ n ≤ 0x1FE then { c with pass := Buf.put c.pass (n - 0x100) v }
  else c

/-- The state after that write. -/
def State.writeIn (s : State) (a : Addr) (v : Byte) : State := { s with cin := s.cin.write a v }

/-- A host read has returned byte `b` (R61, R235): the host has it; the block is unchanged (R62). -/
def State.returned (s : State) (b : Byte) : State :=
  { s with host := { s.host with reads := s.host.reads ++ [b] } }

/-- A port request is issued and answered (R120): the answer is at hand for the phase that asked, and the port trace
has one more entry. -/
def State.answered (s : State) (request : PortWord) (answer : Option Bytes) : State :=
  { s with
    cint := { s.cint with resp := answer }
    trace := s.trace ++ [{ request := request, answer := answer }] }

/-- The agenda without the event that is being taken. -/
def State.withAgenda (s : State) (rest : List HostEvent) : State :=
  { s with host := { s.host with agenda := rest } }

end Sys2Proof.Machine
end

