-- ==== Sys2Proof/Machine/Commands.lean ====
section
/-! DEFINITION. The meanings of format CMD8: what a host write of the byte to CMD does (R90, R91, R232, R233). While
BUSY = 1 the write is dropped (R64). ENC and DEC start the sequencer, whose phases are in Sequencer.lean. -/

namespace Sys2Proof.Machine

/-- A write to CMD: dropped while BUSY = 1 (R64, R30), else the command's own effect. -/
def State.onCommand (s : State) (effect : State → State) : Outcome := if s.busy then .next s else .next (effect s)

/-- ENC, CMD = 0x01 (R91, R160). -/
def execEnc (s : State) : Outcome := s.onCommand fun s => s.begin .enc .eStart

/-- DEC, CMD = 0x02 (R91, R190). -/
def execDec (s : State) : Outcome := s.onCommand fun s => s.begin .dec .dStart

/-- CLR, CMD = 0x03 (R232). -/
def execClr (s : State) : Outcome := s.onCommand fun s => s.toReset

/-- ILLEGAL, CMD = 0x00 (R233). -/
def execIllegal00 (s : State) : Outcome := s.onCommand fun s => s.illegalCommand

/-- ILLEGAL, CMD = 0x04 to 0x07 (R233): the byte itself has no further effect. -/
def execIllegal04 (_v : Byte) (s : State) : Outcome := s.onCommand fun s => s.illegalCommand

/-- ILLEGAL, CMD = 0x08 to 0x0F (R233). -/
def execIllegal08 (_v : Byte) (s : State) : Outcome := s.onCommand fun s => s.illegalCommand

/-- ILLEGAL, CMD = 0x10 to 0x1F (R233). -/
def execIllegal10 (_v : Byte) (s : State) : Outcome := s.onCommand fun s => s.illegalCommand

/-- ILLEGAL, CMD = 0x20 to 0x3F (R233). -/
def execIllegal20 (_v : Byte) (s : State) : Outcome := s.onCommand fun s => s.illegalCommand

/-- ILLEGAL, CMD = 0x40 to 0x7F (R233). -/
def execIllegal40 (_v : Byte) (s : State) : Outcome := s.onCommand fun s => s.illegalCommand

/-- ILLEGAL, CMD = 0x80 to 0xFF (R233). -/
def execIllegal80 (_v : Byte) (s : State) : Outcome := s.onCommand fun s => s.illegalCommand

end Sys2Proof.Machine
end

