-- ==== Sys2Proof/Machine/HostAccess.lean ====
section
/-! DEFINITION. The meanings of format HOSTACC: WR (R63, R234) and RD (R62, R235). No access is ever an error (R65,
R276). -/

namespace Sys2Proof.Machine

/-- The command a byte written to CMD encodes (R91). -/
def startCommand (v : Byte) (s : State) : Outcome :=
  if v = 0x01 then execEnc s
  else if v = 0x02 then execDec s
  else if v = 0x03 then execClr s
  else .next s.illegalCommand

/-- WR a, v (R63): nothing while BUSY = 1; CMD starts the command v encodes; a class-IN byte is stored; every other
address ignores the write. -/
def execWr (a : Addr) (v : Byte) (s : State) : Outcome :=
  if s.busy then .next s
  else if a = 0x000 then startCommand v s
  else .next (s.writeIn a v)

/-- RD a (R62): one byte to the host, and no change of the block. -/
def execRd (a : Addr) (s : State) (C : Capabilities := Config.attached) : Outcome :=
  .next (s.returned (s.memRead C.cap a))

end Sys2Proof.Machine
end

