-- ==== Sys2Proof/Machine/Ports.lean ====
section
/-! DEFINITION. The meanings of format PORTSEL5 (R120 to R136): a request is issued, the port's function answers it at
its arguments, the answer is at hand for the phase that asked, and the port trace records it. No operation of a port
writes a STATUS flag or raises an error. Each meaning is written over any `Capabilities`; the chip's are the default. -/

namespace Sys2Proof.Machine

/-- The text a B58ENC port answers, as bytes. -/
def textBytes (t : B58Text) : Bytes := (t.chars.toList.take (t.last.val + 1)).map Ascii.byte

/-- The characters an ADDRESS port answers, as bytes. -/
def asciiBytes (l : List Ascii) : Bytes := l.map Ascii.byte

/-- B58DEC43 (R136): the empty string is rejected, any other is the port's to judge (DESIGN CHOICE, log entry 10). -/
def base58Decode (C : Capabilities) (str : Bytes) : Option (Buf 43) := if str = [] then none else C.b58dec43 str

/-- NFC8 (R129): the empty text is its own normal form (P-NFC-EMPTY of R129; R163: "PLEN = 0 gives the empty NP"), any
other is the port's. -/
def normalise (C : Capabilities) (text : Bytes) : Bytes := if text = [] then [] else C.nfc8 text

/-- SCRYPT (R127): the cost parameters are constants wired into the request (R7); no register changes them. -/
def stretch (C : Capabilities) (password : Bytes) (salt : Buf 4) : Buf 64 :=
  C.scrypt Config.scryptN Config.scryptR Config.scryptP password salt

/-- AES.ENC, PORTSEL 0b00000 (R122). -/
def execAesEnc (key : Buf 32) (block : Buf 16) (s : State) (C : Capabilities := Config.attached) : Outcome :=
  .next (s.answered ⟨0b00000, [Buf.bytes key, Buf.bytes block]⟩ (some (Buf.bytes (C.aes256Enc key block))))

/-- AES.DEC, PORTSEL 0b00001 (R123). -/
def execAesDec (key : Buf 32) (block : Buf 16) (s : State) (C : Capabilities := Config.attached) : Outcome :=
  .next (s.answered ⟨0b00001, [Buf.bytes key, Buf.bytes block]⟩ (some (Buf.bytes (C.aes256Dec key block))))

/-- SHA256D, PORTSEL 0b00010 (R125). -/
def execSha256d (msg : Bytes) (s : State) (C : Capabilities := Config.attached) : Outcome :=
  .next (s.answered ⟨0b00010, [msg]⟩ (some (Buf.bytes (C.sha256d msg))))

/-- SCRYPT, PORTSEL 0b00100 (R127). -/
def execScrypt (password : Bytes) (salt : Buf 4) (s : State) (C : Capabilities := Config.attached) : Outcome :=
  .next (s.answered ⟨0b00100, [password, Buf.bytes salt]⟩ (some (Buf.bytes (stretch C password salt))))

/-- NFC8, PORTSEL 0b00110 (R129). -/
def execNfc8 (text : Bytes) (s : State) (C : Capabilities := Config.attached) : Outcome :=
  .next (s.answered ⟨0b00110, [text]⟩ (some (normalise C text)))

/-- ECPUB, PORTSEL 0b01000 (R131): `none` is Invalid. -/
def execEcpub (priv : Buf 32) (s : State) (C : Capabilities := Config.attached) : Outcome :=
  .next (s.answered ⟨0b01000, [Buf.bytes priv]⟩ (C.ecpub priv))

/-- ECCOMP, PORTSEL 0b01010 (R132). -/
def execEccomp (pub : Bytes) (s : State) (C : Capabilities := Config.attached) : Outcome :=
  .next (s.answered ⟨0b01010, [pub]⟩ (some (C.eccomp pub)))

/-- ADDRESS, PORTSEL 0b01100 (R133). -/
def execAddress (pub : Bytes) (s : State) (C : Capabilities := Config.attached) : Outcome :=
  .next (s.answered ⟨0b01100, [pub]⟩ (some (asciiBytes (C.address pub))))

/-- B58ENC, PORTSEL 0b01110 (R135). -/
def execB58enc (blob : Buf 43) (s : State) (C : Capabilities := Config.attached) : Outcome :=
  .next (s.answered ⟨0b01110, [Buf.bytes blob]⟩ (some (textBytes (C.b58enc blob))))

/-- B58DEC43, PORTSEL 0b10000 (R136): `none` is Reject. -/
def execB58dec43 (str : Bytes) (s : State) (C : Capabilities := Config.attached) : Outcome :=
  .next (s.answered ⟨0b10000, [str]⟩ ((base58Decode C str).map Buf.bytes))

end Sys2Proof.Machine
end

