-- ==== Sys2Proof/Machine/Dispatch.lean ====
section
/-! DEFINITION. One arm per instruction. -/

namespace Sys2Proof.Machine

def exec (i : Instr) (s : State) : Host.Outcome State Fault Refusal :=
  match i with
  -- format CMD8
  | .enc => Sys2Proof.Machine.execEnc s
  | .dec => Sys2Proof.Machine.execDec s
  | .clr => Sys2Proof.Machine.execClr s
  | .illegal00 => Sys2Proof.Machine.execIllegal00 s
  | .illegal04 v => Sys2Proof.Machine.execIllegal04 v s
  | .illegal08 v => Sys2Proof.Machine.execIllegal08 v s
  | .illegal10 v => Sys2Proof.Machine.execIllegal10 v s
  | .illegal20 v => Sys2Proof.Machine.execIllegal20 v s
  | .illegal40 v => Sys2Proof.Machine.execIllegal40 v s
  | .illegal80 v => Sys2Proof.Machine.execIllegal80 v s
  -- format PORTSEL5
  | .aesEnc key block => Sys2Proof.Machine.execAesEnc key block s
  | .aesDec key block => Sys2Proof.Machine.execAesDec key block s
  | .sha256d msg => Sys2Proof.Machine.execSha256d msg s
  | .scrypt password salt => Sys2Proof.Machine.execScrypt password salt s
  | .nfc8 text => Sys2Proof.Machine.execNfc8 text s
  | .ecpub priv => Sys2Proof.Machine.execEcpub priv s
  | .eccomp pub => Sys2Proof.Machine.execEccomp pub s
  | .address pub => Sys2Proof.Machine.execAddress pub s
  | .b58enc blob => Sys2Proof.Machine.execB58enc blob s
  | .b58dec43 str => Sys2Proof.Machine.execB58dec43 str s
  -- format HOSTACC
  | .wr a v => Sys2Proof.Machine.execWr a v s
  | .rd a => Sys2Proof.Machine.execRd a s

end Sys2Proof.Machine
end

