-- ==== Sys2Proof/Machine/Sequencer.lean ====
section
/-! DEFINITION. The sequencer: which port each phase asks and with what (41_encrypt R161 to R176, 42_decrypt R191 to
R209), and what each phase does once its request has been answered. One definition per phase. -/

namespace Sys2Proof.Machine

/-- The request the phase in hand sends to a port, if it sends one (R160, R190). D_B58 sends none when ELEN_IN is above
64 (R193), E_COMP and D_COMP none when COMP = 0 (R165, R206). -/
def portRequest (s : State) : Option PortWord :=
  let r := s.cint
  match r.phase with
  | .idle => none
  | .eStart => none
  | .eFlag => none
  | .eNorm => some ⟨0b00110, [s.passphrase]⟩
  | .ePub => some ⟨0b01000, [Buf.bytes s.cin.keyIn]⟩
  | .eComp => if r.comp then some ⟨0b01010, [r.pub]⟩ else none
  | .eAddr => some ⟨0b01100, [r.pub]⟩
  | .eSalt => some ⟨0b00010, [r.addr]⟩
  | .eKdf => some ⟨0b00100, [r.np, Buf.bytes r.salt]⟩
  | .eXor1 => none
  | .eAes1 => some ⟨0b00000, [Buf.bytes (derivedHalf2 r.dk), Buf.bytes r.x]⟩
  | .eXor2 => none
  | .eAes2 => some ⟨0b00000, [Buf.bytes (derivedHalf2 r.dk), Buf.bytes r.x]⟩
  | .eFrame => none
  | .eCsum => some ⟨0b00010, [Buf.bytes (blobBody r.blob)]⟩
  | .eB58 => some ⟨0b01110, [Buf.bytes r.blob]⟩
  | .eDone => none
  | .dStart => none
  | .dB58 => if s.elenTooLong then none else some ⟨0b10000, [s.encrypted]⟩
  | .dCsum => some ⟨0b00010, [Buf.bytes (blobBody r.blob)]⟩
  | .dMode => none
  | .dSplit => none
  | .dNorm => some ⟨0b00110, [s.passphrase]⟩
  | .dKdf => some ⟨0b00100, [r.np, Buf.bytes r.salt]⟩
  | .dAes1 => some ⟨0b00001, [Buf.bytes (derivedHalf2 r.dk), Buf.bytes r.eh1]⟩
  | .dXor1 => none
  | .dAes2 => some ⟨0b00001, [Buf.bytes (derivedHalf2 r.dk), Buf.bytes r.eh2]⟩
  | .dXor2 => none
  | .dPub => some ⟨0b01000, [Buf.bytes r.k]⟩
  | .dComp => if r.comp then some ⟨0b01010, [r.pub]⟩ else none
  | .dAddr => some ⟨0b01100, [r.pub]⟩
  | .dVerify => some ⟨0b00010, [r.addr]⟩
  | .dDone => none

/-- Class INT changed by a phase, PHASE moved on, and the answer in hand used up. -/
def State.advance (s : State) (next : Phase) (r : ClassInt) : State :=
  { s with cint := { r with phase := next, resp := none } }

/-- The bytes the port answered in this step. -/
def State.answer (s : State) : Bytes := s.cint.resp.getD []

/-- Every port must be attached (R255). -/
def requireCap (cap : BitVec 9) (s : State) (go : State) : State :=
  if cap = Config.capAll then go else s.raise .capabilityUnavailable

/-- E_START (R161). -/
def phaseEStart (cap : BitVec 9) (s : State) : State := requireCap cap s (s.advance .eFlag s.cint)

/-- E_FLAG (R162). -/
def phaseEFlag (s : State) : State :=
  s.advance .eNorm { s.cint with comp := s.compIn, flagb := flagByte s.compIn }

/-- E_NORM (R163). -/
def phaseENorm (s : State) : State := s.advance .ePub { s.cint with np := s.answer }

/-- E_PUB (R164). -/
def phaseEPub (s : State) : State :=
  match s.cint.resp with
  | none => s.raise .invalidKeyFormat
  | some pub => s.advance .eComp { s.cint with pub := pub }

/-- E_COMP (R165). -/
def phaseEComp (s : State) : State :=
  if s.cint.comp then s.advance .eAddr { s.cint with pub := s.answer } else s.advance .eAddr s.cint

/-- E_ADDR (R166). -/
def phaseEAddr (s : State) : State := s.advance .eSalt { s.cint with addr := s.answer }

/-- E_SALT (R167): ADDRHASH. -/
def phaseESalt (s : State) : State :=
  s.advance .eKdf
    { s.cint with h := Buf.ofBytes 32 s.answer, salt := Buf.first4 (Buf.ofBytes 32 s.answer) }

/-- E_KDF (R168). -/
def phaseEKdf (s : State) : State := s.advance .eXor1 { s.cint with dk := Buf.ofBytes 64 s.answer }

/-- E_XOR1 (R169). -/
def phaseEXor1 (s : State) : State :=
  s.advance .eAes1 { s.cint with x := xor16 s.keyFirst (maskFirst s.cint.dk) }

/-- E_AES1 (R170). -/
def phaseEAes1 (s : State) : State := s.advance .eXor2 { s.cint with eh1 := Buf.ofBytes 16 s.answer }

/-- E_XOR2 (R171). -/
def phaseEXor2 (s : State) : State :=
  s.advance .eAes2 { s.cint with x := xor16 s.keySecond (maskSecond s.cint.dk) }

/-- E_AES2 (R172). -/
def phaseEAes2 (s : State) : State := s.advance .eFrame { s.cint with eh2 := Buf.ofBytes 16 s.answer }

/-- E_FRAME (R173): BLOB[0..38] <- FRAME39. -/
def phaseEFrame (s : State) : State :=
  s.advance .eCsum
    { s.cint with blob := Buf.splice s.cint.blob 0 (frame39 s.cint.flagb s.cint.salt s.cint.eh1 s.cint.eh2) }

/-- E_CSUM (R174): BLOB[39..42] <- H[0..3]. -/
def phaseECsum (s : State) : State :=
  s.advance .eB58
    { s.cint with
      h := Buf.ofBytes 32 s.answer
      blob := Buf.splice s.cint.blob 39 (Buf.first4 (Buf.ofBytes 32 s.answer)) }

/-- E_B58 (R175). -/
def phaseEB58 (s : State) : State := s.advance .eDone { s.cint with s := s.answer }

/-- E_DONE (R176): ESTR_OUT[0..SLEN-1] <- S, the rest 0x00, OUT_ELEN <- SLEN, completion without error. -/
def phaseEDone (s : State) : State :=
  { s with
    cout := { s.cout with
      estrOut := Buf.ofBytes 64 s.cint.s
      outElen := BitVec.ofNat 8 s.cint.s.length } }.complete

/-- D_START (R191). -/
def phaseDStart (cap : BitVec 9) (s : State) : State := requireCap cap s (s.advance .dB58 s.cint)

/-- D_B58 (R193). -/
def phaseDB58 (s : State) : State :=
  if s.elenTooLong then s.raise .malformedCiphertext
  else
    match s.cint.resp with
    | none => s.raise .malformedCiphertext
    | some blob => s.advance .dCsum { s.cint with blob := Buf.ofBytes 43 blob }

/-- D_CSUM (R194). -/
def phaseDCsum (s : State) : State :=
  if eqBytes (Buf.first4 (Buf.ofBytes 32 s.answer)) (blobCsum s.cint.blob) then
    s.advance .dMode { s.cint with h := Buf.ofBytes 32 s.answer }
  else s.raise .malformedCiphertext

/-- D_MODE (R196): the version bytes (R99), then the flag byte (R98). -/
def phaseDMode (s : State) : State :=
  if versionOk s.cint.blob then
    match compOfFlag (blobFlag s.cint.blob) with
    | none => s.raise .unsupportedMode
    | some comp => s.advance .dSplit { s.cint with flagb := blobFlag s.cint.blob, comp := comp }
  else s.raise .unsupportedMode

/-- D_SPLIT (R197): DEFRAME43. -/
def phaseDSplit (s : State) : State :=
  s.advance .dNorm
    { s.cint with
      salt := (deframe43 s.cint.blob).addresshash
      eh1 := (deframe43 s.cint.blob).eh1
      eh2 := (deframe43 s.cint.blob).eh2 }

/-- D_NORM (R198). -/
def phaseDNorm (s : State) : State := s.advance .dKdf { s.cint with np := s.answer }

/-- D_KDF (R199). -/
def phaseDKdf (s : State) : State := s.advance .dAes1 { s.cint with dk := Buf.ofBytes 64 s.answer }

/-- D_AES1 (R200). -/
def phaseDAes1 (s : State) : State := s.advance .dXor1 { s.cint with x := Buf.ofBytes 16 s.answer }

/-- D_XOR1 (R201): K[0..15] <- XOR16(X, DK[0..15]). -/
def phaseDXor1 (s : State) : State :=
  s.advance .dAes2 { s.cint with k := Buf.splice s.cint.k 0 (xor16 s.cint.x (maskFirst s.cint.dk)) }

/-- D_AES2 (R202). -/
def phaseDAes2 (s : State) : State := s.advance .dXor2 { s.cint with x := Buf.ofBytes 16 s.answer }

/-- D_XOR2 (R203): K[16..31] <- XOR16(X, DK[16..31]). -/
def phaseDXor2 (s : State) : State :=
  s.advance .dPub { s.cint with k := Buf.splice s.cint.k 16 (xor16 s.cint.x (maskSecond s.cint.dk)) }

/-- D_PUB (R205). -/
def phaseDPub (s : State) : State :=
  match s.cint.resp with
  | none => s.raise .wrongPassphrase
  | some pub => s.advance .dComp { s.cint with pub := pub }

/-- D_COMP (R206). -/
def phaseDComp (s : State) : State :=
  if s.cint.comp then s.advance .dAddr { s.cint with pub := s.answer } else s.advance .dAddr s.cint

/-- D_ADDR (R207). -/
def phaseDAddr (s : State) : State := s.advance .dVerify { s.cint with addr := s.answer }

/-- D_VERIFY (R208). -/
def phaseDVerify (s : State) : State :=
  if eqBytes (Buf.first4 (Buf.ofBytes 32 s.answer)) s.cint.salt then
    s.advance .dDone { s.cint with h := Buf.ofBytes 32 s.answer }
  else s.raise .wrongPassphrase

/-- D_DONE (R209): KEY_OUT <- K, OUT_FLAGS <- 0000000 ‖ COMP, completion without error. -/
def phaseDDone (s : State) : State :=
  { s with cout := { s.cout with keyOut := s.cint.k, outFlags := outFlagsOf s.cint.comp } }.complete

/-- What the phase in hand does once its request, if any, has been answered. In IDLE nothing happens (R273). -/
def finishPhase (cap : BitVec 9) (s : State) : State :=
  match s.cint.phase with
  | .idle => s
  | .eStart => phaseEStart cap s
  | .eFlag => phaseEFlag s
  | .eNorm => phaseENorm s
  | .ePub => phaseEPub s
  | .eComp => phaseEComp s
  | .eAddr => phaseEAddr s
  | .eSalt => phaseESalt s
  | .eKdf => phaseEKdf s
  | .eXor1 => phaseEXor1 s
  | .eAes1 => phaseEAes1 s
  | .eXor2 => phaseEXor2 s
  | .eAes2 => phaseEAes2 s
  | .eFrame => phaseEFrame s
  | .eCsum => phaseECsum s
  | .eB58 => phaseEB58 s
  | .eDone => phaseEDone s
  | .dStart => phaseDStart cap s
  | .dB58 => phaseDB58 s
  | .dCsum => phaseDCsum s
  | .dMode => phaseDMode s
  | .dSplit => phaseDSplit s
  | .dNorm => phaseDNorm s
  | .dKdf => phaseDKdf s
  | .dAes1 => phaseDAes1 s
  | .dXor1 => phaseDXor1 s
  | .dAes2 => phaseDAes2 s
  | .dXor2 => phaseDXor2 s
  | .dPub => phaseDPub s
  | .dComp => phaseDComp s
  | .dAddr => phaseDAddr s
  | .dVerify => phaseDVerify s
  | .dDone => phaseDDone s

end Sys2Proof.Machine
end

