-- ==== Sys2Proof/Machine/Fetch.lean ====
section
/-! DEFINITION. Who moves next and what it hands the machine: the agenda's next event, the decoding of the word fetched,
one step of the sequencer, and one step of the whole, over any executor of instructions. -/

namespace Sys2Proof.Machine

/-- Decode a word and execute it. The word of a host access always decodes; so does every request of the sequencer. -/
def runWord (ex : Instr → State → Outcome) (w : FetchWord) (s : State) : Outcome :=
  match decode w with
  | .ok i => ex i s
  | .error e => .refused (.undecodable e)

/-- One step of the sequencer (R12, R120): the phase's request is sent and answered, then the phase is performed, all
in one step. -/
def sequencerTurn (cap : BitVec 9) (ex : Instr → State → Outcome) (s : State) : Outcome :=
  match portRequest s with
  | none => .next (finishPhase cap s)
  | some w =>
    match runWord ex (.portsel w) s with
    | .next t => .next (finishPhase cap t)
    | .fault r => .fault r
    | .refused r => .refused r

/-- One step of the whole (R12, R69): the agenda's next event, or, with nothing on the agenda, the sequencer
(DESIGN CHOICE, log entries 2 and 11). -/
def stepUsing (cap : BitVec 9) (ex : Instr → State → Outcome) (s : State) : Outcome :=
  match s.host.agenda with
  | [] => sequencerTurn cap ex s
  | .turn :: rest => sequencerTurn cap ex (s.withAgenda rest)
  | .access w :: rest => runWord ex (.hostacc w) (s.withAgenda rest)
  | .reset :: rest => .next (s.withAgenda rest).toReset

/-- The host's next event is `e`. -/
def State.expecting (s : State) (e : HostEvent) : State := s.withAgenda (e :: s.host.agenda)

/-- PHASE, OP and STATUS as they stand in a phase. -/
def State.inPhase (s : State) (p : Phase) (r : ClassInt) : State :=
  { s with status := statusBusy, cint := { r with phase := p, op := p.op } }

/-- A phase that sends the request of this selector, its operand registers zero, so that every field is zero (DESIGN
CHOICE, log entry 22). -/
def State.inRequest (s : State) (sel : Selector) : State :=
  match sel.toNat with
  | 0b00000 => s.inPhase .eAes1 { s.cint with dk := Buf.zero 64, x := Buf.zero 16 }
  | 0b00001 => s.inPhase .dAes1 { s.cint with dk := Buf.zero 64, eh1 := Buf.zero 16 }
  | 0b00010 => s.inPhase .eSalt { s.cint with addr := [] }
  | 0b00100 => s.inPhase .eKdf { s.cint with np := [], salt := Buf.zero 4 }
  | 0b00110 => { s with cin := { s.cin with plen := 0x00 } }.inPhase .eNorm s.cint
  | 0b01000 => { s with cin := { s.cin with keyIn := Buf.zero 32 } }.inPhase .ePub s.cint
  | 0b01010 => s.inPhase .eComp { s.cint with comp := true, pub := [] }
  | 0b01100 => s.inPhase .eAddr { s.cint with pub := [] }
  | 0b01110 => s.inPhase .eB58 { s.cint with blob := Buf.zero 43 }
  | 0b10000 => { s with cin := { s.cin with elenIn := 0x00 } }.inPhase .dB58 s.cint
  | _ => s

/-- The state whose next step fetches the opcode-table word `w` of `nbits` bits: a command byte is written to CMD, a
host access is the host's next, and a port request is the sequencer's next. -/
def State.placeWord (s : State) (nbits w : Nat) : State :=
  if nbits = 8 then s.expecting (.access (accessWord 1 0x000 (BitVec.ofNat 8 w)))
  else if nbits = 5 then (s.inRequest (BitVec.ofNat 5 w)).expecting .turn
  else s.expecting (.access (BitVec.ofNat 18 w))

end Sys2Proof.Machine
end

