-- ==== Sys2Proof/Machine/Step.lean ====
section
/-! DEFINITION. The step of the chip, and where a word of the opcode table is put so that the next step runs it. -/

namespace Sys2Proof.Machine

/-- One step of BIP38C and its host. -/
def step (s : State) : Host.Outcome State Fault Refusal := stepUsing Config.attached.cap exec s

/-- `s` with the opcode-table word placed where `step` fetches its next instruction. -/
def State.withFetchWord (s : State) (nbits w : Nat) : State := s.placeWord nbits w

end Sys2Proof.Machine
end

