-- ==== Sys2Proof/Machine/Functions.lean ====
section
/-! DEFINITION. ENC and DEC as one function each, as R160 and R190 write them, the selectors of the ports each asks,
and the state each leaves. Nothing of the machine is defined from these: the statements compare the sequencer's sixteen
phases with them. -/

namespace Sys2Proof.Machine

/-- The public key in the encoding the CompressionFlag selects (R165, R206). -/
def encodedPub (C : Capabilities) (comp : Bool) (pub : Bytes) : Bytes := if comp then C.eccomp pub else pub

/-- The address-hash of a public key (R166, R167). -/
def pubHash (C : Capabilities) (comp : Bool) (pub : Bytes) : Buf 4 :=
  addrHash C (asciiBytes (C.address (encodedPub C comp pub)))

/-- BODY as ENC builds it (R160). -/
def encBody (C : Capabilities) (key : Buf 32) (comp : Bool) (pass pub : Bytes) : Buf 39 :=
  let salt := pubHash C comp pub
  let dk := stretch C (normalise C pass) salt
  let eh1 := C.aes256Enc (derivedHalf2 dk) (xor16 (Buf.slice key 0 16) (maskFirst dk))
  let eh2 := C.aes256Enc (derivedHalf2 dk) (xor16 (Buf.slice key 16 16) (maskSecond dk))
  frame39 (flagByte comp) salt eh1 eh2

/-- BLOB as ENC builds it: BODY and its checksum (R160, R97). -/
def encBlob (C : Capabilities) (key : Buf 32) (comp : Bool) (pass pub : Bytes) : Buf 43 :=
  blobOf (encBody C key comp pass pub) (csum4 C (encBody C key comp pass pub))

/-- ENC(key, comp, pass) of R160. -/
def encFunction (C : Capabilities) (key : Buf 32) (comp : Bool) (pass : Bytes) : Except ErrorKind Bytes :=
  if C.cap ≠ Config.capAll then .error .capabilityUnavailable
  else
    match C.ecpub key with
    | none => .error .invalidKeyFormat
    | some pub => .ok (textBytes (C.b58enc (encBlob C key comp pass pub)))

/-- The key DEC recovers from a BLOB before it is verified (R190). -/
def candidateKey (C : Capabilities) (blob : Buf 43) (pass : Bytes) : Buf 32 :=
  let dk := stretch C (normalise C pass) (blobSalt blob)
  join16 (xor16 (C.aes256Dec (derivedHalf2 dk) (blobHalf1 blob)) (maskFirst dk))
    (xor16 (C.aes256Dec (derivedHalf2 dk) (blobHalf2 blob)) (maskSecond dk))

/-- DEC(str, pass) of R190 from the BLOB on: the checks of R194 and R196, the candidate key, R205 and R208. -/
def decBlob (C : Capabilities) (blob : Buf 43) (pass : Bytes) : Except ErrorKind (Buf 32 × Bool) :=
  if csum4 C (blobBody blob) ≠ blobCsum blob then .error .malformedCiphertext
  else if versionOk blob = false then .error .unsupportedMode
  else
    match compOfFlag (blobFlag blob) with
    | none => .error .unsupportedMode
    | some comp =>
      match C.ecpub (candidateKey C blob pass) with
      | none => .error .wrongPassphrase
      | some pub =>
        if pubHash C comp pub ≠ blobSalt blob then .error .wrongPassphrase
        else .ok (candidateKey C blob pass, comp)

/-- DEC(str, pass) of R190, `str` being `elen` characters of a 64-character buffer. -/
def decFunction (C : Capabilities) (elen : Nat) (str pass : Bytes) : Except ErrorKind (Buf 32 × Bool) :=
  if C.cap ≠ Config.capAll then .error .capabilityUnavailable
  else if 64 < elen then .error .malformedCiphertext
  else
    match base58Decode C str with
    | none => .error .malformedCiphertext
    | some blob => decBlob C blob pass

/-- The selectors of the ports ENC asks, in order (R160). -/
def encSelectors (C : Capabilities) (key : Buf 32) (comp : Bool) : List Selector :=
  if C.cap ≠ Config.capAll then []
  else
    match C.ecpub key with
    | none => [0b00110, 0b01000]
    | some _ =>
      [0b00110, 0b01000] ++ (if comp then [0b01010] else []) ++
        [0b01100, 0b00010, 0b00100, 0b00000, 0b00000, 0b00010, 0b01110]

/-- The selectors of the ports DEC asks from the checksum on (R190): none beyond SHA256D before the checks pass. -/
def decBlobSelectors (C : Capabilities) (blob : Buf 43) (pass : Bytes) : List Selector :=
  if csum4 C (blobBody blob) ≠ blobCsum blob then [0b00010]
  else if versionOk blob = false then [0b00010]
  else
    match compOfFlag (blobFlag blob) with
    | none => [0b00010]
    | some comp =>
      [0b00010, 0b00110, 0b00100, 0b00001, 0b00001, 0b01000] ++
        (match C.ecpub (candidateKey C blob pass) with
        | none => []
        | some _ => (if comp then [0b01010] else []) ++ [0b01100, 0b00010])

/-- The selectors of the ports DEC asks, in order (R190). -/
def decSelectors (C : Capabilities) (elen : Nat) (str pass : Bytes) : List Selector :=
  if C.cap ≠ Config.capAll then []
  else if 64 < elen then []
  else
    0b10000 ::
      (match base58Decode C str with
      | none => []
      | some blob => decBlobSelectors C blob pass)

/-- The registers of the block after a completion (R262, R263) with these results; the host's side and the port trace
are given. -/
def completed (status errcode : Byte) (out : ClassOut) (trace : List PortEvent) (host : HostSide) : State where
  cin := ClassIn.zero
  cout := out
  status := status
  errcode := errcode
  cint := ClassInt.zero
  trace := trace
  host := host

/-- The state ENC leaves (R262, R176). -/
def encOutcome (r : Except ErrorKind Bytes) (trace : List PortEvent) (host : HostSide) : State :=
  match r with
  | .error e => completed statusError e.code ClassOut.zero trace host
  | .ok str =>
    completed statusDone 0x00
      { ClassOut.zero with estrOut := Buf.ofBytes 64 str, outElen := BitVec.ofNat 8 str.length } trace host

/-- The state DEC leaves (R262, R209). -/
def decOutcome (r : Except ErrorKind (Buf 32 × Bool)) (trace : List PortEvent) (host : HostSide) : State :=
  match r with
  | .error e => completed statusError e.code ClassOut.zero trace host
  | .ok (key, comp) =>
    completed statusDone 0x00 { ClassOut.zero with keyOut := key, outFlags := outFlagsOf comp } trace host

/-- R124, the contract of the AES port. -/
def aesContract (C : Capabilities) : Prop :=
  (∀ key block, C.aes256Dec key (C.aes256Enc key block) = block) ∧
    ∀ key block, C.aes256Enc key (C.aes256Dec key block) = block

/-- P-NFC-IDEM of R129, a contract property of the NFC8 port. -/
def pNfcIdem (C : Capabilities) : Prop := ∀ text, normalise C (normalise C text) = normalise C text

/-- P-NFC-EMPTY of R129; the model builds it in (`normalise`). -/
def pNfcEmpty (C : Capabilities) : Prop := normalise C [] = []

/-- P-NFC-ASCII of R129, a contract property of the NFC8 port. -/
def pNfcAscii (C : Capabilities) : Prop := ∀ text, (∀ b ∈ text, b.toNat < 0x80) → normalise C text = text

/-- R137, the contract of the base-58 ports. -/
def base58Contract (C : Capabilities) : Prop :=
  ∀ blob : Buf 43, Buf.get blob 0 ≠ 0x00 → base58Decode C (textBytes (C.b58enc blob)) = some blob

end Sys2Proof.Machine
end

