-- ==== Sys2Proof/Machine/Generic.lean ====
section
/-! DEFINITION. The same machine over ANY parameters (R8, R13): `execWith C` and `stepWith C` are `exec` and `step`
with the port functions and the strap of `C` in place of the chip's opaque ones (`execWith Config.attached` is `exec`:
Laws/Generic.lean). A statement that needs a contract of the ports (R124, R137) is made over these, and can then be met
by concrete ports. -/

namespace Sys2Proof.Machine

/-- `exec` over the parameters `C`. -/
def execWith (C : Capabilities) (i : Instr) (s : State) : Outcome :=
  match i with
  | .enc => execEnc s
  | .dec => execDec s
  | .clr => execClr s
  | .illegal00 => execIllegal00 s
  | .illegal04 v => execIllegal04 v s
  | .illegal08 v => execIllegal08 v s
  | .illegal10 v => execIllegal10 v s
  | .illegal20 v => execIllegal20 v s
  | .illegal40 v => execIllegal40 v s
  | .illegal80 v => execIllegal80 v s
  | .aesEnc key block => execAesEnc key block s C
  | .aesDec key block => execAesDec key block s C
  | .sha256d msg => execSha256d msg s C
  | .scrypt password salt => execScrypt password salt s C
  | .nfc8 text => execNfc8 text s C
  | .ecpub priv => execEcpub priv s C
  | .eccomp pub => execEccomp pub s C
  | .address pub => execAddress pub s C
  | .b58enc blob => execB58enc blob s C
  | .b58dec43 str => execB58dec43 str s C
  | .wr a v => execWr a v s
  | .rd a => execRd a s C

/-- `step` over the parameters `C`. -/
def stepWith (C : Capabilities) (s : State) : Outcome := stepUsing C.cap (execWith C) s

/-- `n` steps over the parameters `C`, stopping at a fault or a refusal. -/
def runWith (C : Capabilities) : Nat → State → Outcome
  | 0, s => .next s
  | n + 1, s =>
    match stepWith C s with
    | .next t => runWith C n t
    | .fault r => .fault r
    | .refused r => .refused r

end Sys2Proof.Machine
end

