-- ==== Sys2Proof/Safety.lean ====
section
/-! DEFINITION. The terms in which claims speak of good states and of what is observed: the invariants of STATUS, of the
register lifetimes, of the coded registers and of the port trace, and what one read of the host returns. -/

namespace Sys2Proof.Machine

/-- R31, R32, R41: STATUS has one of its four values, BUSY says whether PHASE is IDLE, ERR says whether ERRCODE is zero,
ERRCODE is zero while a command runs and after CLR, no code above 0x06 is produced (R250), and OP follows PHASE. -/
structure StatusInv (s : State) : Prop where
  legal : s.status = 0x00 ∨ s.status = 0x01 ∨ s.status = 0x02 ∨ s.status = 0x06
  busy_iff : s.busy = true ↔ s.cint.phase ≠ .idle
  err_iff : s.err = true ↔ s.errcode ≠ 0x00
  code_le : s.errcode.toNat ≤ 6
  op_eq : s.cint.op = s.cint.phase.op

/-- R20, R26, R54: class OUT is zero while a command runs, and after an error; class INT is zero when none runs. -/
structure LifetimeInv (s : State) : Prop where
  out_zero_running : s.cint.phase ≠ .idle → s.cout = ClassOut.zero
  out_zero_failed : s.err = true → s.cout = ClassOut.zero
  int_zero_idle : s.cint.phase = .idle → s.cint = ClassInt.zero

/-- The phases in which the CompressionFlag of the command is settled: after E_FLAG and after D_MODE (R162, R196). -/
def Phase.modeSettled (p : Phase) : Bool :=
  match p with
  | .idle | .eStart | .eFlag | .dStart | .dB58 | .dCsum | .dMode => false
  | .eNorm | .ePub | .eComp | .eAddr | .eSalt | .eKdf | .eXor1 | .eAes1 | .eXor2 | .eAes2 | .eFrame | .eCsum
  | .eB58 | .eDone => true
  | .dSplit | .dNorm | .dKdf | .dAes1 | .dXor1 | .dAes2 | .dXor2 | .dPub | .dComp | .dAddr | .dVerify | .dDone => true

/-- R23, R28, R29, R58, R162, R196: the reserved bits of CTRL and OUT_FLAGS are 0, S has at most 64 characters,
OUT_ELEN is at most 64 and the bytes of ESTR_OUT from it on are 0x00, and once the mode is settled FLAGB is the flag
byte of COMP. -/
structure FormatInv (s : State) : Prop where
  ctrl_reserved : s.cin.ctrl &&& ctrlMask = s.cin.ctrl
  outFlags_reserved : s.cout.outFlags &&& outFlagsMask = s.cout.outFlags
  str_le : s.cint.s.length ≤ 64
  elen_le : s.cout.outElen.toNat ≤ 64
  estr_tail : ∀ i, s.cout.outElen.toNat ≤ i → Buf.get s.cout.estrOut i = 0x00
  flag_eq : s.cint.phase.modeSettled = true → s.cint.flagb = flagByte s.cint.comp

/-- What a port answers to a request, as bytes; `none` for an instruction that is no port request. -/
def portAnswer (C : Capabilities) : Instr → Option (Option Bytes)
  | .enc => none
  | .dec => none
  | .clr => none
  | .illegal00 => none
  | .illegal04 _ => none
  | .illegal08 _ => none
  | .illegal10 _ => none
  | .illegal20 _ => none
  | .illegal40 _ => none
  | .illegal80 _ => none
  | .aesEnc key block => some (some (Buf.bytes (C.aes256Enc key block)))
  | .aesDec key block => some (some (Buf.bytes (C.aes256Dec key block)))
  | .sha256d msg => some (some (Buf.bytes (C.sha256d msg)))
  | .scrypt password salt => some (some (Buf.bytes (stretch C password salt)))
  | .nfc8 text => some (some (normalise C text))
  | .ecpub priv => some (C.ecpub priv)
  | .eccomp pub => some (some (C.eccomp pub))
  | .address pub => some (some (asciiBytes (C.address pub)))
  | .b58enc blob => some (some (textBytes (C.b58enc blob)))
  | .b58dec43 str => some ((base58Decode C str).map Buf.bytes)
  | .wr _ _ => none
  | .rd _ => none

/-- R101, R120, R13: every entry of the port trace is a request of one of the ten operations, answered with the value of
the port's function at the request's arguments. -/
def TraceInv (C : Capabilities) (s : State) : Prop :=
  ∀ e ∈ s.trace, ∃ i, decodePort e.request = .ok i ∧ portAnswer C i = some e.answer

/-- The registers of the block (all four classes) are the same in both states. -/
def sameBlock (s t : State) : Prop :=
  t.cin = s.cin ∧ t.cout = s.cout ∧ t.status = s.status ∧ t.errcode = s.errcode ∧ t.cint = s.cint

/-- RD of address `a` returns byte `b` to the host and changes nothing else. -/
def readReturns (s : State) (a : Addr) (b : Byte) : Prop :=
  exec (.rd a) s = .next { s with host := { s.host with reads := s.host.reads ++ [b] } }

/-- The host is about to write the command byte `v` to CMD, and does nothing more. -/
def aboutToCommand (s : State) (v : Byte) : Prop :=
  s.busy = false ∧ s.host.agenda = [.access (accessWord 1 0x000 v)]

/-- The selectors of the port trace, in order of issue. -/
def State.selectors (s : State) : List Selector := s.trace.map fun e => e.request.selector

end Sys2Proof.Machine
end

