-- ==== Sys2Proof/Certificates/Slice0/Obligations.lean ====
section
/-! DEFINITION. The statements for the provers. Each docstring names the rules of spec/ it formalises. `Config.cap`,
`Config.sha256d`, … are the opaque parameters of the chip; `C` stands for any parameters (R8, R13). -/

open Sys2Proof Sys2Proof.Machine

/-! ### Encodings -/

/-- R90, R101, R102, R61: decoding the encoding of a well-formed instruction gives it back, with every operand. -/
def Obligations.DecodeEncodeRoundTrip : Prop := ∀ i : Instr, i.wf = true → decode (encode i) = .ok i

/-- R90: every command byte has a row, and that row's instruction is encoded by the byte. -/
def Obligations.CommandByteDecodeTotal : Prop :=
  ∀ v : Byte, (decodeCommand v).wf = true ∧ encode (decodeCommand v) = .cmd8 v

/-- R90, R101, R61: a few words of the opcode table read as the instructions they stand for. -/
def Obligations.RowWordsDecode : Prop :=
  decode (.cmd8 0b00000001) = .ok .enc ∧ decode (.cmd8 0b00000010) = .ok .dec ∧
    decode (.cmd8 0b00000011) = .ok .clr ∧ decode (.cmd8 0b00000000) = .ok .illegal00 ∧
    decode (.cmd8 0b01111111) = .ok (.illegal40 0x7F) ∧
    decode (.portsel ⟨0b00010, [[0x61, 0x62, 0x63]]⟩) = .ok (.sha256d [0x61, 0x62, 0x63]) ∧
    decode (.portsel ⟨0b10000, [[0x36, 0x50]]⟩) = .ok (.b58dec43 [0x36, 0x50]) ∧
    decode (.hostacc 0b100010000011001011) = .ok (.wr 0x020 0xCB) ∧
    decode (.hostacc 0b000000000100000000) = .ok (.rd 0x001)

/-- R93(e), R101: a selector other than the ten is refused by name, whatever its fields. -/
def Obligations.ReservedSelectorsRefused : Prop :=
  ∀ (sel : Selector) (fields : List Bytes),
    sel ∉ [0b00000, 0b00001, 0b00010, 0b00100, 0b00110, 0b01000, 0b01010, 0b01100, 0b01110, (0b10000 : Selector)] →
    decode (.portsel ⟨sel, fields⟩) = .error (.reservedSelector sel)

/-! ### Commands -/

/-- R91 (the case 0x01): ENC clears class OUT, ERRCODE, DONE and ERR, sets OP = 1, PHASE = E_START and BUSY, and changes
nothing else of the block. That the port trace starts anew is the model's choice (log entry 5). -/
def Obligations.EncStartsSequencer : Prop :=
  ∀ s : State, s.busy = false →
    exec .enc s = .next
      { s with
        cout := ClassOut.zero, errcode := 0x00, status := 0x01, trace := []
        cint := { s.cint with op := .enc, phase := .eStart } }

/-- R91 (the case 0x02): DEC, likewise, with OP = 2 and PHASE = D_START. -/
def Obligations.DecStartsSequencer : Prop :=
  ∀ s : State, s.busy = false →
    exec .dec s = .next
      { s with
        cout := ClassOut.zero, errcode := 0x00, status := 0x01, trace := []
        cint := { s.cint with op := .dec, phase := .dStart } }

/-- R232, R293: CLR leaves every register exactly as reset does; only the host's own side stays. -/
def Obligations.ClrRestoresReset : Prop :=
  ∀ s : State, s.busy = false → exec .clr s = .next { State.reset with host := s.host }

/-- R233, R262: an illegal command byte clears classes IN, OUT and INT, and leaves ERRCODE = 0x06 and STATUS = 0x06. -/
def Obligations.IllegalCommandsComplete : Prop :=
  ∀ (s : State) (v : Byte), s.busy = false →
    let done : Outcome := .next
      { cin := ClassIn.zero, cout := ClassOut.zero, status := 0x06, errcode := 0x06
        cint := ClassInt.zero, trace := [], host := s.host }
    exec .illegal00 s = done ∧ exec (.illegal04 v) s = done ∧ exec (.illegal08 v) s = done ∧
      exec (.illegal10 v) s = done ∧ exec (.illegal20 v) s = done ∧ exec (.illegal40 v) s = done ∧
      exec (.illegal80 v) s = done

/-- R64, R30: while BUSY = 1 every command byte is dropped. -/
def Obligations.CommandsIgnoredWhileBusy : Prop :=
  ∀ (s : State) (v : Byte), s.busy = true →
    exec (decodeCommand v) s = .next s ∧ exec (.wr 0x000 v) s = .next s

/-- R63, R90, R91: a write to CMD does what the instruction its byte encodes does. -/
def Obligations.CmdWriteRunsCommand : Prop :=
  ∀ (s : State) (v : Byte), exec (.wr 0x000 v) s = exec (decodeCommand v) s

/-- R75, R91: the command byte placed as the host's next write is the instruction the next step runs. -/
def Obligations.PlacedCommandIsRun : Prop :=
  ∀ (s : State) (v : Byte), step (s.withFetchWord 8 v.toNat) = exec (decodeCommand v) s

/-! ### Host accesses -/

/-- R63, R66, R67: while BUSY = 0 a write to a class-IN byte stores it (bit 0 alone for CTRL): the host reads it back
there, every other address reads as before, and nothing but class IN changes. -/
def Obligations.WriteStoresClassInByte : Prop :=
  ∀ (s : State) (a : Addr) (v : Byte), s.busy = false → isClassIn a = true →
    ∃ c : ClassIn,
      exec (.wr a v) s = .next { s with cin := c } ∧
        ∀ b : Addr,
          State.memRead Config.cap { s with cin := c } b =
            if b = a then (if a = 0x003 then v &&& 0x01 else v) else State.memRead Config.cap s b

/-- R63, R65: while BUSY = 0 a write to any other address than CMD and class IN changes nothing. -/
def Obligations.WriteElsewhereIgnored : Prop :=
  ∀ (s : State) (a : Addr) (v : Byte), s.busy = false → a ≠ 0x000 → isClassIn a = false →
    exec (.wr a v) s = .next s

/-- R64: while BUSY = 1 a write to any address changes nothing. -/
def Obligations.WriteIgnoredWhileBusy : Prop :=
  ∀ (s : State) (a : Addr) (v : Byte), s.busy = true → exec (.wr a v) s = .next s

/-- R62, R65, R66: while BUSY = 0 a read returns the byte the address map gives, and 0x00 for CMD and every reserved
address, and changes no register. -/
def Obligations.ReadReturnsMappedByte : Prop :=
  ∀ s : State, s.busy = false →
    readReturns s 0x000 0x00 ∧ readReturns s 0x001 (s.status &&& 0x07) ∧ readReturns s 0x002 s.errcode ∧
    readReturns s 0x003 (s.cin.ctrl &&& 0x01) ∧ readReturns s 0x004 s.cin.plen ∧
    readReturns s 0x005 s.cin.elenIn ∧ readReturns s 0x006 (s.cout.outFlags &&& 0x01) ∧
    readReturns s 0x007 s.cout.outElen ∧ readReturns s 0x008 (Config.cap.extractLsb' 0 8) ∧
    readReturns s 0x009 (if Config.cap.getLsbD 8 then 0x01 else 0x00) ∧
    (∀ n : Nat, 0x00A ≤ n → n ≤ 0x01F → readReturns s (BitVec.ofNat 9 n) 0x00) ∧
    (∀ i : Fin 32, readReturns s (BitVec.ofNat 9 (0x020 + i.val)) s.cin.keyIn[i]) ∧
    (∀ i : Fin 32, readReturns s (BitVec.ofNat 9 (0x040 + i.val)) s.cout.keyOut[i]) ∧
    (∀ n : Nat, 0x060 ≤ n → n ≤ 0x07F → readReturns s (BitVec.ofNat 9 n) 0x00) ∧
    (∀ i : Fin 64, readReturns s (BitVec.ofNat 9 (0x080 + i.val)) s.cin.estrIn[i]) ∧
    (∀ i : Fin 64, readReturns s (BitVec.ofNat 9 (0x0C0 + i.val)) s.cout.estrOut[i]) ∧
    (∀ i : Fin 255, readReturns s (BitVec.ofNat 9 (0x100 + i.val)) s.cin.pass[i]) ∧
    readReturns s 0x1FF 0x00

/-- R62, R64: while BUSY = 1 a read of STATUS returns it, every other read returns 0x00, and nothing changes. -/
def Obligations.ReadMaskedWhileBusy : Prop :=
  ∀ (s : State) (a : Addr), s.busy = true → readReturns s a (if a = 0x001 then s.status &&& 0x07 else 0x00)

/-! ### Capability ports -/

/-- R122, R123, R125, R127: a request to the AES, SHA256D or SCRYPT port is answered with the port's function at its
arguments, in every state; nothing changes but the answer at hand and the port trace (log entry 5). -/
def Obligations.CryptoPortsAnswer : Prop :=
  ∀ (s : State) (key : Buf 32) (block : Buf 16) (msg : Bytes) (salt : Buf 4),
    (exec (.aesEnc key block) s = .next
      { s with
        cint := { s.cint with resp := some (Buf.bytes (Config.aes256Enc key block)) }
        trace := s.trace ++
          [⟨⟨0b00000, [Buf.bytes key, Buf.bytes block]⟩, some (Buf.bytes (Config.aes256Enc key block))⟩] }) ∧
    (exec (.aesDec key block) s = .next
      { s with
        cint := { s.cint with resp := some (Buf.bytes (Config.aes256Dec key block)) }
        trace := s.trace ++
          [⟨⟨0b00001, [Buf.bytes key, Buf.bytes block]⟩, some (Buf.bytes (Config.aes256Dec key block))⟩] }) ∧
    (exec (.sha256d msg) s = .next
      { s with
        cint := { s.cint with resp := some (Buf.bytes (Config.sha256d msg)) }
        trace := s.trace ++ [⟨⟨0b00010, [msg]⟩, some (Buf.bytes (Config.sha256d msg))⟩] }) ∧
    (exec (.scrypt msg salt) s = .next
      { s with
        cint := { s.cint with resp := some (Buf.bytes (Config.scrypt 16384 8 8 msg salt)) }
        trace := s.trace ++
          [⟨⟨0b00100, [msg, Buf.bytes salt]⟩, some (Buf.bytes (Config.scrypt 16384 8 8 msg salt))⟩] })

/-- R129, R131, R132, R133, R135, R136: the same for the six collaborators; Invalid and Reject are `none`, and the empty
string is rejected by B58DEC43. -/
def Obligations.CollaboratorPortsAnswer : Prop :=
  ∀ (s : State) (priv : Buf 32) (blob : Buf 43) (text : Bytes),
    (exec (.nfc8 text) s = .next
      { s with
        cint := { s.cint with resp := some (if text = [] then [] else Config.nfc8 text) }
        trace := s.trace ++ [⟨⟨0b00110, [text]⟩, some (if text = [] then [] else Config.nfc8 text)⟩] }) ∧
    (exec (.ecpub priv) s = .next
      { s with
        cint := { s.cint with resp := Config.ecpub priv }
        trace := s.trace ++ [⟨⟨0b01000, [Buf.bytes priv]⟩, Config.ecpub priv⟩] }) ∧
    (exec (.eccomp text) s = .next
      { s with
        cint := { s.cint with resp := some (Config.eccomp text) }
        trace := s.trace ++ [⟨⟨0b01010, [text]⟩, some (Config.eccomp text)⟩] }) ∧
    (exec (.address text) s = .next
      { s with
        cint := { s.cint with resp := some (asciiBytes (Config.address text)) }
        trace := s.trace ++ [⟨⟨0b01100, [text]⟩, some (asciiBytes (Config.address text))⟩] }) ∧
    (exec (.b58enc blob) s = .next
      { s with
        cint := { s.cint with resp := some (textBytes (Config.b58enc blob)) }
        trace := s.trace ++ [⟨⟨0b01110, [Buf.bytes blob]⟩, some (textBytes (Config.b58enc blob))⟩] }) ∧
    (exec (.b58dec43 text) s = .next
      { s with
        cint := { s.cint with
          resp := if text = [] then none else (Config.b58dec43 text).map Buf.bytes }
        trace := s.trace ++
          [⟨⟨0b10000, [text]⟩, if text = [] then none else (Config.b58dec43 text).map Buf.bytes⟩] })

/-- R62, R120, R235: a port request or a host read changes no byte the host can read, no register of class IN or OUT,
neither STATUS nor ERRCODE, and of class INT at most the answer at hand. -/
def Obligations.PortsAndReadsKeepHostView : Prop :=
  ∀ (i : Instr) (s t : State),
    (portAnswer Config.attached i ≠ none ∨ ∃ a, i = .rd a) → exec i s = .next t →
    (∀ a : Addr, State.memRead Config.cap t a = State.memRead Config.cap s a) ∧
      t.cin = s.cin ∧ t.cout = s.cout ∧ t.status = s.status ∧ t.errcode = s.errcode ∧
      { t.cint with resp := s.cint.resp } = s.cint

/-! ### The step -/

/-- R12, R61, R120: a step runs the instruction its word decodes to: the host's next access as it stands, and the
sequencer's port request followed by the phase that asked; a phase that asks no port is performed at once. -/
def Obligations.StepRunsDecodedInstruction : Prop :=
  (∀ (s : State) (w : BitVec 18) (rest : List HostEvent) (i : Instr),
    s.host.agenda = .access w :: rest → decode (.hostacc w) = .ok i → step s = exec i (s.withAgenda rest)) ∧
  (∀ (s t : State) (w : PortWord) (i : Instr),
    s.host.agenda = [] → portRequest s = some w → decode (.portsel w) = .ok i → exec i s = .next t →
    step s = .next (finishPhase Config.cap t)) ∧
  (∀ s : State, s.host.agenda = [] → portRequest s = none → step s = .next (finishPhase Config.cap s)) ∧
  (∀ (s : State) (rest : List HostEvent),
    s.host.agenda = .turn :: rest → step s = sequencerTurn Config.cap exec (s.withAgenda rest))

/-- R65, R257, R308: no step ends in a fault or a refusal. -/
def Obligations.StepNeverStops : Prop := ∀ s : State, ∃ t : State, step s = .next t

/-- R290, R292: a reset event puts every register at zero, whatever the block was doing; the host's later events and the
bytes it has read are its own. -/
def Obligations.ResetEventClearsBlock : Prop :=
  ∀ (s : State) (rest : List HostEvent), s.host.agenda = .reset :: rest →
    step s = .next { State.reset with host := { agenda := rest, reads := s.host.reads } }

/-- R56, R290: every register of classes IN, OUT and INT, STATUS and ERRCODE is zero after reset. -/
def Obligations.ResetStateAllZero : Prop :=
  State.reset.cin.ctrl = 0x00 ∧ State.reset.cin.plen = 0x00 ∧ State.reset.cin.elenIn = 0x00 ∧
    (∀ i : Nat, Buf.get State.reset.cin.keyIn i = 0x00) ∧ (∀ i : Nat, Buf.get State.reset.cin.estrIn i = 0x00) ∧
    (∀ i : Nat, Buf.get State.reset.cin.pass i = 0x00) ∧ (∀ i : Nat, Buf.get State.reset.cout.keyOut i = 0x00) ∧
    State.reset.cout.outFlags = 0x00 ∧ (∀ i : Nat, Buf.get State.reset.cout.estrOut i = 0x00) ∧
    State.reset.cout.outElen = 0x00 ∧ State.reset.status = 0x00 ∧ State.reset.errcode = 0x00 ∧
    State.reset.cint.phase.code = 0x00 ∧ State.reset.cint.op.code = 0 ∧ State.reset.cint.flagb = 0x00 ∧
    State.reset.cint.comp = false ∧ State.reset.cint.np = [] ∧ State.reset.cint.pub = [] ∧
    State.reset.cint.addr = [] ∧ State.reset.cint.s = [] ∧ (∀ i : Nat, Buf.get State.reset.cint.salt i = 0x00) ∧
    (∀ i : Nat, Buf.get State.reset.cint.dk i = 0x00) ∧ (∀ i : Nat, Buf.get State.reset.cint.x i = 0x00) ∧
    (∀ i : Nat, Buf.get State.reset.cint.eh1 i = 0x00) ∧ (∀ i : Nat, Buf.get State.reset.cint.eh2 i = 0x00) ∧
    (∀ i : Nat, Buf.get State.reset.cint.k i = 0x00) ∧ (∀ i : Nat, Buf.get State.reset.cint.blob i = 0x00) ∧
    (∀ i : Nat, Buf.get State.reset.cint.h i = 0x00)

/-- R262, R250: `raise e` writes the code of `e` to ERRCODE, clears classes OUT, IN and INT (so PHASE = IDLE and OP =
0) and sets STATUS = 0x06. That the port trace is kept is the model's choice (log entry 5). -/
def Obligations.RaiseClearsEverything : Prop :=
  ∀ (s : State) (e : ErrorKind),
    s.raise e =
      { cin := ClassIn.zero, cout := ClassOut.zero, status := 0x06
        errcode :=
          match e with
          | .invalidKeyFormat => 0x01
          | .malformedCiphertext => 0x02
          | .wrongPassphrase => 0x03
          | .unsupportedMode => 0x04
          | .capabilityUnavailable => 0x05
          | .illegalCommand => 0x06
        cint := ClassInt.zero, trace := s.trace, host := s.host }

/-- R263: completion without error clears classes IN and INT, sets STATUS = 0x02, and leaves class OUT and ERRCODE (0x00
since the command began, R91). That the port trace is kept is the model's choice (log entry 5). -/
def Obligations.CompletionClearsOperands : Prop :=
  ∀ s : State,
    s.complete =
      { cin := ClassIn.zero, cout := s.cout, status := 0x02, errcode := s.errcode
        cint := ClassInt.zero, trace := s.trace, host := s.host }

/-! ### The phases -/

/-- R161 to R167: E_START to E_SALT, each as one step of the sequencer. -/
def Obligations.EncPhasesStartToSalt : Prop :=
  ∀ s : State, s.host.agenda = [] →
    (s.cint.phase = .eStart → step s = .next
      (if Config.cap = 0x1FF then { s with cint := { s.cint with phase := .eFlag, resp := none } }
       else s.raise .capabilityUnavailable)) ∧
    (s.cint.phase = .eFlag → step s = .next
      { s with cint := { s.cint with
          comp := s.cin.ctrl.getLsbD 0, flagb := if s.cin.ctrl.getLsbD 0 then 0xE0 else 0xC0
          phase := .eNorm, resp := none } }) ∧
    (s.cint.phase = .eNorm →
      let np := if s.cin.plen = 0x00 then [] else Config.nfc8 s.passphrase
      step s = .next
        { s with
          cint := { s.cint with np := np, phase := .ePub, resp := none }
          trace := s.trace ++ [⟨⟨0b00110, [s.passphrase]⟩, some np⟩] }) ∧
    (s.cint.phase = .ePub → step s = .next
      (match Config.ecpub s.cin.keyIn with
       | none =>
         State.raise { s with trace := s.trace ++ [⟨⟨0b01000, [Buf.bytes s.cin.keyIn]⟩, none⟩] } .invalidKeyFormat
       | some pub =>
         { s with
           cint := { s.cint with pub := pub, phase := .eComp, resp := none }
           trace := s.trace ++ [⟨⟨0b01000, [Buf.bytes s.cin.keyIn]⟩, some pub⟩] })) ∧
    (s.cint.phase = .eComp → step s = .next
      (if s.cint.comp = true then
         { s with
           cint := { s.cint with pub := Config.eccomp s.cint.pub, phase := .eAddr, resp := none }
           trace := s.trace ++ [⟨⟨0b01010, [s.cint.pub]⟩, some (Config.eccomp s.cint.pub)⟩] }
       else { s with cint := { s.cint with phase := .eAddr, resp := none } })) ∧
    (s.cint.phase = .eAddr → step s = .next
      { s with
        cint := { s.cint with addr := asciiBytes (Config.address s.cint.pub), phase := .eSalt, resp := none }
        trace := s.trace ++ [⟨⟨0b01100, [s.cint.pub]⟩, some (asciiBytes (Config.address s.cint.pub))⟩] }) ∧
    (s.cint.phase = .eSalt → step s = .next
      { s with
        cint := { s.cint with
          h := Config.sha256d s.cint.addr, salt := Buf.slice (Config.sha256d s.cint.addr) 0 4
          phase := .eKdf, resp := none }
        trace := s.trace ++ [⟨⟨0b00010, [s.cint.addr]⟩, some (Buf.bytes (Config.sha256d s.cint.addr))⟩] })

/-- R168 to R176: E_KDF to E_DONE, each as one step of the sequencer. For an S of more than 64 characters, which R58
excludes, the E_DONE clause says what the model does there: its own choice (log entry 16). -/
def Obligations.EncPhasesKdfToDone : Prop :=
  ∀ s : State, s.host.agenda = [] →
    (s.cint.phase = .eKdf → step s = .next
      { s with
        cint := { s.cint with dk := Config.scrypt 16384 8 8 s.cint.np s.cint.salt, phase := .eXor1, resp := none }
        trace := s.trace ++
          [⟨⟨0b00100, [s.cint.np, Buf.bytes s.cint.salt]⟩,
            some (Buf.bytes (Config.scrypt 16384 8 8 s.cint.np s.cint.salt))⟩] }) ∧
    (s.cint.phase = .eXor1 → step s = .next
      { s with cint := { s.cint with
          x := xor16 (Buf.slice s.cin.keyIn 0 16) (Buf.slice s.cint.dk 0 16), phase := .eAes1, resp := none } }) ∧
    (s.cint.phase = .eAes1 → step s = .next
      { s with
        cint := { s.cint with
          eh1 := Config.aes256Enc (Buf.slice s.cint.dk 32 32) s.cint.x, phase := .eXor2, resp := none }
        trace := s.trace ++
          [⟨⟨0b00000, [Buf.bytes (Buf.slice s.cint.dk 32 32), Buf.bytes s.cint.x]⟩,
            some (Buf.bytes (Config.aes256Enc (Buf.slice s.cint.dk 32 32) s.cint.x))⟩] }) ∧
    (s.cint.phase = .eXor2 → step s = .next
      { s with cint := { s.cint with
          x := xor16 (Buf.slice s.cin.keyIn 16 16) (Buf.slice s.cint.dk 16 16), phase := .eAes2, resp := none } }) ∧
    (s.cint.phase = .eAes2 → step s = .next
      { s with
        cint := { s.cint with
          eh2 := Config.aes256Enc (Buf.slice s.cint.dk 32 32) s.cint.x, phase := .eFrame, resp := none }
        trace := s.trace ++
          [⟨⟨0b00000, [Buf.bytes (Buf.slice s.cint.dk 32 32), Buf.bytes s.cint.x]⟩,
            some (Buf.bytes (Config.aes256Enc (Buf.slice s.cint.dk 32 32) s.cint.x))⟩] }) ∧
    (s.cint.phase = .eFrame → step s = .next
      { s with cint := { s.cint with
          blob := Buf.splice s.cint.blob 0 (frame39 s.cint.flagb s.cint.salt s.cint.eh1 s.cint.eh2)
          phase := .eCsum, resp := none } }) ∧
    (s.cint.phase = .eCsum → step s = .next
      { s with
        cint := { s.cint with
          h := Config.sha256d (Buf.bytes (Buf.slice s.cint.blob 0 39))
          blob := Buf.splice s.cint.blob 39
            (Buf.slice (Config.sha256d (Buf.bytes (Buf.slice s.cint.blob 0 39))) 0 4)
          phase := .eB58, resp := none }
        trace := s.trace ++
          [⟨⟨0b00010, [Buf.bytes (Buf.slice s.cint.blob 0 39)]⟩,
            some (Buf.bytes (Config.sha256d (Buf.bytes (Buf.slice s.cint.blob 0 39))))⟩] }) ∧
    (s.cint.phase = .eB58 → step s = .next
      { s with
        cint := { s.cint with s := textBytes (Config.b58enc s.cint.blob), phase := .eDone, resp := none }
        trace := s.trace ++
          [⟨⟨0b01110, [Buf.bytes s.cint.blob]⟩, some (textBytes (Config.b58enc s.cint.blob))⟩] }) ∧
    (s.cint.phase = .eDone → step s = .next
      { s with
        cout := { s.cout with
          estrOut := Buf.ofBytes 64 s.cint.s, outElen := BitVec.ofNat 8 s.cint.s.length }
        cin := ClassIn.zero, cint := ClassInt.zero, status := 0x02 })

/-- R191, R193, R194, R196 to R199: D_START to D_KDF, each as one step of the sequencer. -/
def Obligations.DecPhasesStartToKdf : Prop :=
  ∀ s : State, s.host.agenda = [] →
    (s.cint.phase = .dStart → step s = .next
      (if Config.cap = 0x1FF then { s with cint := { s.cint with phase := .dB58, resp := none } }
       else s.raise .capabilityUnavailable)) ∧
    (s.cint.phase = .dB58 → step s = .next
      (if 64 < s.cin.elenIn.toNat then s.raise .malformedCiphertext
       else
         match base58Decode Config.attached s.encrypted with
         | none => State.raise { s with trace := s.trace ++ [⟨⟨0b10000, [s.encrypted]⟩, none⟩] } .malformedCiphertext
         | some blob =>
           { s with
             cint := { s.cint with blob := blob, phase := .dCsum, resp := none }
             trace := s.trace ++ [⟨⟨0b10000, [s.encrypted]⟩, some (Buf.bytes blob)⟩] })) ∧
    (s.cint.phase = .dCsum →
      let digest := Config.sha256d (Buf.bytes (Buf.slice s.cint.blob 0 39))
      let trace := s.trace ++ [⟨⟨0b00010, [Buf.bytes (Buf.slice s.cint.blob 0 39)]⟩, some (Buf.bytes digest)⟩]
      step s = .next
        (if Buf.slice digest 0 4 = Buf.slice s.cint.blob 39 4 then
           { s with cint := { s.cint with h := digest, phase := .dMode, resp := none }, trace := trace }
         else State.raise { s with trace := trace } .malformedCiphertext)) ∧
    (s.cint.phase = .dMode → step s = .next
      (if s.cint.blob[0] = 0x01 ∧ s.cint.blob[1] = 0x42 then
         if s.cint.blob[2] = 0xC0 then
           { s with cint := { s.cint with flagb := 0xC0, comp := false, phase := .dSplit, resp := none } }
         else if s.cint.blob[2] = 0xE0 then
           { s with cint := { s.cint with flagb := 0xE0, comp := true, phase := .dSplit, resp := none } }
         else s.raise .unsupportedMode
       else s.raise .unsupportedMode)) ∧
    (s.cint.phase = .dSplit → step s = .next
      { s with cint := { s.cint with
          salt := Buf.slice s.cint.blob 3 4, eh1 := Buf.slice s.cint.blob 7 16, eh2 := Buf.slice s.cint.blob 23 16
          phase := .dNorm, resp := none } }) ∧
    (s.cint.phase = .dNorm →
      let np := if s.cin.plen = 0x00 then [] else Config.nfc8 s.passphrase
      step s = .next
        { s with
          cint := { s.cint with np := np, phase := .dKdf, resp := none }
          trace := s.trace ++ [⟨⟨0b00110, [s.passphrase]⟩, some np⟩] }) ∧
    (s.cint.phase = .dKdf → step s = .next
      { s with
        cint := { s.cint with dk := Config.scrypt 16384 8 8 s.cint.np s.cint.salt, phase := .dAes1, resp := none }
        trace := s.trace ++
          [⟨⟨0b00100, [s.cint.np, Buf.bytes s.cint.salt]⟩,
            some (Buf.bytes (Config.scrypt 16384 8 8 s.cint.np s.cint.salt))⟩] })

/-- R200 to R203, R205 to R209: D_AES1 to D_DONE, each as one step of the sequencer. -/
def Obligations.DecPhasesAesToDone : Prop :=
  ∀ s : State, s.host.agenda = [] →
    (s.cint.phase = .dAes1 → step s = .next
      { s with
        cint := { s.cint with
          x := Config.aes256Dec (Buf.slice s.cint.dk 32 32) s.cint.eh1, phase := .dXor1, resp := none }
        trace := s.trace ++
          [⟨⟨0b00001, [Buf.bytes (Buf.slice s.cint.dk 32 32), Buf.bytes s.cint.eh1]⟩,
            some (Buf.bytes (Config.aes256Dec (Buf.slice s.cint.dk 32 32) s.cint.eh1))⟩] }) ∧
    (s.cint.phase = .dXor1 → step s = .next
      { s with cint := { s.cint with
          k := Buf.splice s.cint.k 0 (xor16 s.cint.x (Buf.slice s.cint.dk 0 16)), phase := .dAes2, resp := none } }) ∧
    (s.cint.phase = .dAes2 → step s = .next
      { s with
        cint := { s.cint with
          x := Config.aes256Dec (Buf.slice s.cint.dk 32 32) s.cint.eh2, phase := .dXor2, resp := none }
        trace := s.trace ++
          [⟨⟨0b00001, [Buf.bytes (Buf.slice s.cint.dk 32 32), Buf.bytes s.cint.eh2]⟩,
            some (Buf.bytes (Config.aes256Dec (Buf.slice s.cint.dk 32 32) s.cint.eh2))⟩] }) ∧
    (s.cint.phase = .dXor2 → step s = .next
      { s with cint := { s.cint with
          k := Buf.splice s.cint.k 16 (xor16 s.cint.x (Buf.slice s.cint.dk 16 16)), phase := .dPub, resp := none } }) ∧
    (s.cint.phase = .dPub → step s = .next
      (match Config.ecpub s.cint.k with
       | none => State.raise { s with trace := s.trace ++ [⟨⟨0b01000, [Buf.bytes s.cint.k]⟩, none⟩] } .wrongPassphrase
       | some pub =>
         { s with
           cint := { s.cint with pub := pub, phase := .dComp, resp := none }
           trace := s.trace ++ [⟨⟨0b01000, [Buf.bytes s.cint.k]⟩, some pub⟩] })) ∧
    (s.cint.phase = .dComp → step s = .next
      (if s.cint.comp = true then
         { s with
           cint := { s.cint with pub := Config.eccomp s.cint.pub, phase := .dAddr, resp := none }
           trace := s.trace ++ [⟨⟨0b01010, [s.cint.pub]⟩, some (Config.eccomp s.cint.pub)⟩] }
       else { s with cint := { s.cint with phase := .dAddr, resp := none } })) ∧
    (s.cint.phase = .dAddr → step s = .next
      { s with
        cint := { s.cint with addr := asciiBytes (Config.address s.cint.pub), phase := .dVerify, resp := none }
        trace := s.trace ++ [⟨⟨0b01100, [s.cint.pub]⟩, some (asciiBytes (Config.address s.cint.pub))⟩] }) ∧
    (s.cint.phase = .dVerify →
      let digest := Config.sha256d s.cint.addr
      let trace := s.trace ++ [⟨⟨0b00010, [s.cint.addr]⟩, some (Buf.bytes digest)⟩]
      step s = .next
        (if Buf.slice digest 0 4 = s.cint.salt then
           { s with cint := { s.cint with h := digest, phase := .dDone, resp := none }, trace := trace }
         else State.raise { s with trace := trace } .wrongPassphrase)) ∧
    (s.cint.phase = .dDone → step s = .next
      { s with
        cout := { s.cout with keyOut := s.cint.k, outFlags := if s.cint.comp then 0x01 else 0x00 }
        cin := ClassIn.zero, cint := ClassInt.zero, status := 0x02 })

/-- R40 and the phase rules, which the spec's own inference R238 tabulates: in a step of the sequencer PHASE moves to
the numerically next phase, or to IDLE: from a last phase without error, or with the error codes of the table. -/
def Obligations.PhaseMovesAlongTable : Prop :=
  ∀ (C : Capabilities) (s t : State),
    s.host.agenda = [] → s.cint.phase ≠ .idle → stepWith C s = .next t →
    (t.cint.phase ≠ .idle ∧ t.cint.phase.code = s.cint.phase.code + 1 ∧
      s.cint.phase ≠ .eDone ∧ s.cint.phase ≠ .dDone) ∨
    (t.cint.phase = .idle ∧ t.status = 0x02 ∧ t.errcode = s.errcode ∧
      (s.cint.phase = .eDone ∨ s.cint.phase = .dDone)) ∨
    (t.cint.phase = .idle ∧ t.status = 0x06 ∧
      (((s.cint.phase = .eStart ∨ s.cint.phase = .dStart) ∧ C.cap ≠ 0x1FF ∧ t.errcode = 0x05) ∨
       (s.cint.phase = .ePub ∧ C.ecpub s.cin.keyIn = none ∧ t.errcode = 0x01) ∨
       (s.cint.phase = .dB58 ∧
         (64 < s.cin.elenIn.toNat ∨ base58Decode C s.encrypted = none) ∧ t.errcode = 0x02) ∨
       (s.cint.phase = .dCsum ∧ csum4 C (blobBody s.cint.blob) ≠ blobCsum s.cint.blob ∧ t.errcode = 0x02) ∨
       (s.cint.phase = .dMode ∧
         (versionOk s.cint.blob = false ∨ compOfFlag (blobFlag s.cint.blob) = none) ∧ t.errcode = 0x04) ∨
       (s.cint.phase = .dPub ∧ C.ecpub s.cint.k = none ∧ t.errcode = 0x03) ∨
       (s.cint.phase = .dVerify ∧ addrHash C s.cint.addr ≠ s.cint.salt ∧ t.errcode = 0x03)))

/-- R40, R160, R190, R308: left to itself, from any phase and any state, the sequencer is in IDLE after at most 16
steps. -/
def Obligations.CommandEndsWithinSixteen : Prop :=
  ∀ (C : Capabilities) (s : State), s.host.agenda = [] →
    ∃ (n : Nat) (t : State), n ≤ 16 ∧ runWith C n s = .next t ∧ t.cint.phase = .idle

/-- R20, R26, R262, R264: the sequencer writes class OUT only in E_DONE and D_DONE; in every other phase it leaves it as
it is, or clears it because the command ends with an error there; and in IDLE it changes nothing at all. -/
def Obligations.OutWrittenOnlyByLastPhase : Prop :=
  ∀ (C : Capabilities) (s t : State), s.host.agenda = [] → stepWith C s = .next t →
    (s.cint.phase = .idle → t = s) ∧
      (t.cout = s.cout ∨
        (s.cint.phase ≠ .idle ∧ t.cint.phase = .idle ∧ t.status = 0x06 ∧ t.cout = ClassOut.zero) ∨
        s.cint.phase = .eDone ∨ s.cint.phase = .dDone)

/-- R20, R26: no host write puts anything into class OUT; only a write to CMD can clear it. -/
def Obligations.HostCannotWriteOut : Prop :=
  ∀ (s t : State) (a : Addr) (v : Byte), exec (.wr a v) s = .next t →
    t.cout = s.cout ∨ (a = 0x000 ∧ t.cout = ClassOut.zero)

/-! ### Whole commands -/

/-- R13: the chip is the machine over its own parameters, step by step and run by run. -/
def Obligations.RunsAgreeWithCore : Prop :=
  ∀ (n : Nat) (s : State), Sys2Proof.core.run n s = runWith Config.attached n s

/-- R160, R176, R262: the write of 0x01 to CMD and sixteen steps of the sequencer leave exactly the result of the one
function ENC of R160, whatever the other registers held, and ask exactly the ports R160 lists, in order. -/
def Obligations.EncRunsItsFunction : Prop :=
  ∀ (C : Capabilities) (s : State), aboutToCommand s 0x01 →
    ∃ trace : List PortEvent,
      runWith C 17 s = .next
        (encOutcome (encFunction C s.cin.keyIn s.compIn s.passphrase) trace
          { agenda := [], reads := s.host.reads }) ∧
      trace.map (fun e => e.request.selector) = encSelectors C s.cin.keyIn s.compIn

/-- R190, R209, R262: the same for DEC and the one function of R190. -/
def Obligations.DecRunsItsFunction : Prop :=
  ∀ (C : Capabilities) (s : State), aboutToCommand s 0x02 →
    ∃ trace : List PortEvent,
      runWith C 17 s = .next
        (decOutcome (decFunction C s.cin.elenIn.toNat s.encrypted s.passphrase) trace
          { agenda := [], reads := s.host.reads }) ∧
      trace.map (fun e => e.request.selector) = decSelectors C s.cin.elenIn.toNat s.encrypted s.passphrase

/-- The spec's own inference R215 from R160 and R190: the string ENC leaves, given back to DEC with a passphrase of
the same NFC8 image, returns the key and the flag without error, on ports that keep R124 and R137. -/
def Obligations.RoundTripRecoversKey : Prop :=
  ∀ (C : Capabilities) (s s2 : State) (pub : Bytes),
    aesContract C → base58Contract C → C.cap = 0x1FF → C.ecpub s.cin.keyIn = some pub →
    aboutToCommand s 0x01 → aboutToCommand s2 0x02 → normalise C s2.passphrase = normalise C s.passphrase →
    ∃ t u : State,
      runWith C 17 s = .next t ∧ t.status = 0x02 ∧ t.errcode = 0x00 ∧
      runWith C 17 { s2 with cin := { s2.cin with estrIn := t.cout.estrOut, elenIn := t.cout.outElen } } = .next u ∧
      u.status = 0x02 ∧ u.errcode = 0x00 ∧ u.cout.keyOut = s.cin.keyIn ∧
      u.cout.outFlags = (if s.compIn then 0x01 else 0x00)

/-- The spec's own inference R218 from R160, R190 and R208: when DEC gives back a key and a flag, ENC with them and
the same passphrase completes without error and builds the BLOB that DEC decoded. -/
def Obligations.ReEncryptionRebuildsBlob : Prop :=
  ∀ (C : Capabilities) (s s2 : State) (blob : Buf 43) (key : Buf 32) (comp : Bool),
    aesContract C → aboutToCommand s 0x02 → aboutToCommand s2 0x01 →
    base58Decode C s.encrypted = some blob →
    decFunction C s.cin.elenIn.toNat s.encrypted s.passphrase = .ok (key, comp) →
    s2.cin.keyIn = key → s2.compIn = comp → s2.passphrase = s.passphrase →
    ∃ t u : State,
      runWith C 17 s = .next t ∧ t.status = 0x02 ∧ t.errcode = 0x00 ∧ t.cout.keyOut = key ∧
      runWith C 17 s2 = .next u ∧ u.status = 0x02 ∧ u.errcode = 0x00 ∧
      u.cout.estrOut = Buf.ofBytes 64 (textBytes (C.b58enc blob)) ∧
      u.cout.outElen = BitVec.ofNat 8 (textBytes (C.b58enc blob)).length

/-- The spec's own inference R217 from R163 and R198 (R177(c), R303): two passphrases with the same NFC8 image give
the same results in ENC and in DEC. -/
def Obligations.NormalisedPassphrasesEquivalent : Prop :=
  ∀ (C : Capabilities) (s s2 : State) (v : Byte),
    v = 0x01 ∨ v = 0x02 → aboutToCommand s v → aboutToCommand s2 v →
    s2.cin.keyIn = s.cin.keyIn → s2.compIn = s.compIn → s2.cin.elenIn = s.cin.elenIn → s2.encrypted = s.encrypted →
    normalise C s2.passphrase = normalise C s.passphrase →
    ∃ t u : State,
      runWith C 17 s = .next t ∧ runWith C 17 s2 = .next u ∧
      u.cout = t.cout ∧ u.status = t.status ∧ u.errcode = t.errcode

/-- R14, R21: the result of ENC depends on KEY_IN, COMP_IN and the passphrase alone: two states that agree on these and
differ anywhere else end with the same registers. -/
def Obligations.OnlyEncOperandsMatter : Prop :=
  ∀ (C : Capabilities) (s s2 : State), aboutToCommand s 0x01 → aboutToCommand s2 0x01 →
    s2.cin.keyIn = s.cin.keyIn → s2.compIn = s.compIn → s2.passphrase = s.passphrase →
    ∃ t u : State, runWith C 17 s = .next t ∧ runWith C 17 s2 = .next u ∧ sameBlock t u

/-- R14, R21: the result of DEC depends on ELEN_IN, the string and the passphrase alone. -/
def Obligations.OnlyDecOperandsMatter : Prop :=
  ∀ (C : Capabilities) (s s2 : State), aboutToCommand s 0x02 → aboutToCommand s2 0x02 →
    s2.cin.elenIn = s.cin.elenIn → s2.encrypted = s.encrypted → s2.passphrase = s.passphrase →
    ∃ t u : State, runWith C 17 s = .next t ∧ runWith C 17 s2 = .next u ∧ sameBlock t u

/-- The spec's own inference R195 from the order of the phases (R190): a DEC that ends with MalformedCiphertext,
UnsupportedMode or CapabilityUnavailable has asked no port but B58DEC43 and then SHA256D. -/
def Obligations.NoScryptBeforeChecks : Prop :=
  ∀ (C : Capabilities) (s : State), aboutToCommand s 0x02 →
    ∃ t : State, runWith C 17 s = .next t ∧
      (t.errcode = 0x02 ∨ t.errcode = 0x04 ∨ t.errcode = 0x05 →
        t.selectors = [] ∨ t.selectors = [0b10000] ∨ t.selectors = [0b10000, 0b00010])

/-- R208, and the spec's own inference R216: when DEC completes without error, the key it gives has an address whose
hash is the address-hash of the BLOB; nothing stronger is claimed. -/
def Obligations.AcceptedKeyHasMatchingHash : Prop :=
  ∀ (C : Capabilities) (s : State), aboutToCommand s 0x02 →
    ∃ t : State, runWith C 17 s = .next t ∧
      (t.status = 0x02 ∨ t.status = 0x06) ∧
      (t.status = 0x06 → t.cout = ClassOut.zero) ∧
      (t.status = 0x02 →
        ∃ (blob : Buf 43) (pub : Bytes) (comp : Bool),
          base58Decode C s.encrypted = some blob ∧ compOfFlag (blobFlag blob) = some comp ∧
          t.cout.outFlags = (if comp then 0x01 else 0x00) ∧ C.ecpub t.cout.keyOut = some pub ∧
          pubHash C comp pub = blobSalt blob)

/-- R193, and the spec's own inference R300 (R210(a)): a DEC whose string was not loaded again (ELEN_IN = 0) ends with
MalformedCiphertext, or with CapabilityUnavailable when a port is missing, and leaves every result zero. -/
def Obligations.ForgottenStringIsMalformed : Prop :=
  ∀ (C : Capabilities) (s : State), aboutToCommand s 0x02 → s.cin.elenIn = 0x00 →
    ∃ t : State, runWith C 17 s = .next t ∧ t.status = 0x06 ∧ t.cout = ClassOut.zero ∧
      t.errcode = (if C.cap = 0x1FF then 0x02 else 0x05)

/-- R62, R64, R75 (R301 is the spec's own inference): any number of host accesses made while BUSY = 1 leaves every
register as it was; the reads among them return STATUS for its address and 0x00 for every other. -/
def Obligations.BusyAccessesLeaveBlock : Prop :=
  ∀ (C : Capabilities) (s : State) (l : List (BitVec 18)),
    s.busy = true → s.host.agenda = l.map .access →
    ∃ t : State, runWith C l.length s = .next t ∧ sameBlock s t ∧ t.host.agenda = [] ∧
      t.host.reads = s.host.reads ++
        l.filterMap fun w =>
          match decodeAccess w with
          | .rd a => some (if a = 0x001 then s.status &&& 0x07 else 0x00)
          | _ => none

/-- R62, R64, R66, and the spec's own inference R54: no read of the host tells anything of class INT: with every other
register the same, it returns the same byte. -/
def Obligations.SequencerHiddenFromHost : Prop :=
  ∀ (s : State) (r : ClassInt) (a : Addr),
    ∃ b : Byte, readReturns s a b ∧ readReturns { s with cint := r } a b

/-! ### Invariants -/

/-- R31 (whose invariants the spec calls its own inference), R32, R41, R250: every step keeps the invariant of STATUS,
ERRCODE, PHASE and OP. -/
def Obligations.StatusInvariantKept : Prop := ∀ s t : State, StatusInv s → step s = .next t → StatusInv t

/-- R31: it holds after reset. -/
def Obligations.StatusInvariantAtReset : Prop := StatusInv State.reset

/-- R20, R26, R54: every step keeps the lifetimes of classes OUT and INT (given the invariant of STATUS). -/
def Obligations.LifetimeInvariantKept : Prop :=
  ∀ s t : State, StatusInv s → LifetimeInv s → step s = .next t → LifetimeInv t

/-- R20, R56: they hold after reset. -/
def Obligations.LifetimeInvariantAtReset : Prop := LifetimeInv State.reset

/-- R23, R28, R29, R58, R162, R196: every step keeps the reserved bits at 0, the string lengths within 64, the tail of
ESTR_OUT zero, and FLAGB the flag byte of COMP. -/
def Obligations.FormatInvariantKept : Prop := ∀ s t : State, FormatInv s → step s = .next t → FormatInv t

/-- R56: they hold after reset. -/
def Obligations.FormatInvariantAtReset : Prop := FormatInv State.reset

/-- R13, R101, R120: every step keeps the port trace a record of true answers of the ten operations. -/
def Obligations.TraceHoldsPortAnswers : Prop :=
  ∀ (C : Capabilities) (s t : State), TraceInv C s → stepWith C s = .next t → TraceInv C t

/-- R120: it holds after reset. What trace the reset state has is the model's choice (log entry 17). -/
def Obligations.TraceInvariantAtReset : Prop := ∀ C : Capabilities, TraceInv C State.reset

/-! ### The coordinator's own operators -/

/-- R140: XOR16 is bytewise, commutative, undone by itself, and has the all-zero string as identity. -/
def Obligations.XorOperatorLaws : Prop :=
  ∀ a b : Buf 16,
    (∀ i : Fin 16, (xor16 a b)[i] = a[i] ^^^ b[i]) ∧ xor16 a b = xor16 b a ∧ xor16 (xor16 a b) b = a ∧
      xor16 a (Buf.zero 16) = a ∧ xor16 a a = Buf.zero 16

/-- R96, R142: FRAME39 puts 0x01, 0x42, the flag, the salt and the two halves at offsets 0, 1, 2, 3, 7 and 23. -/
def Obligations.FrameLayout : Prop :=
  ∀ (flag : Byte) (salt : Buf 4) (eh1 eh2 : Buf 16),
    (frame39 flag salt eh1 eh2)[0] = 0x01 ∧ (frame39 flag salt eh1 eh2)[1] = 0x42 ∧
      (frame39 flag salt eh1 eh2)[2] = flag ∧
      (∀ i : Fin 4, (frame39 flag salt eh1 eh2)[3 + i.val] = salt[i]) ∧
      (∀ i : Fin 16, (frame39 flag salt eh1 eh2)[7 + i.val] = eh1[i]) ∧
      (∀ i : Fin 16, (frame39 flag salt eh1 eh2)[23 + i.val] = eh2[i])

/-- R144: DEFRAME43 takes the seven fields at their offsets, and (the spec's own inference from R142) undoes FRAME39
and the appended checksum. -/
def Obligations.DeframeUndoesFrame : Prop :=
  (∀ blob : Buf 43,
    deframe43 blob =
      { v0 := blob[0], v1 := blob[1], flag := blob[2], addresshash := Buf.slice blob 3 4
        eh1 := Buf.slice blob 7 16, eh2 := Buf.slice blob 23 16, csum := Buf.slice blob 39 4 }) ∧
  ∀ (flag : Byte) (salt : Buf 4) (eh1 eh2 : Buf 16) (csum : Buf 4),
    deframe43 (blobOf (frame39 flag salt eh1 eh2) csum) =
      { v0 := 0x01, v1 := 0x42, flag := flag, addresshash := salt, eh1 := eh1, eh2 := eh2, csum := csum }

/-! ### IDLE, and the passphrase on its way to scrypt -/

/-- R40, R264, R273: in IDLE all state is retained: left to itself, or given its turn, the sequencer changes nothing of
the block, operands half loaded and results not yet read included. -/
def Obligations.IdleRetainsAllState : Prop :=
  ∀ s : State, s.cint.phase = .idle →
    (s.host.agenda = [] → step s = .next s) ∧
      ∀ rest : List HostEvent, s.host.agenda = .turn :: rest →
        step s = .next { s with host := { agenda := rest, reads := s.host.reads } }

/-- R163, R168, R177(a), R198, R199, R129: what ENC and DEC hand to SCRYPT is the passphrase normalised by NFC8, the same
in both; for PLEN = 0 it is the empty string, and on a port that keeps P-NFC-ASCII an ASCII passphrase is handed over
as it stands. -/
def Obligations.ScryptGetsNormalisedPassphrase : Prop :=
  ∀ (C : Capabilities) (s : State) (v : Byte), v = 0x01 ∨ v = 0x02 → aboutToCommand s v →
    (s.cin.plen = 0x00 → normalise C s.passphrase = []) ∧
      (pNfcAscii C → (∀ b ∈ s.passphrase, b.toNat < 0x80) → normalise C s.passphrase = s.passphrase) ∧
      ∃ t : State, runWith C 17 s = .next t ∧
        (t.status = 0x02 → 0b00100 ∈ t.selectors) ∧
        ∀ e ∈ t.trace, e.request.selector = 0b00100 →
          ∃ salt : Buf 4,
            e.request = ⟨0b00100, [normalise C s.passphrase, Buf.bytes salt]⟩ ∧
              e.answer = some (Buf.bytes (C.scrypt 16384 8 8 (normalise C s.passphrase) salt))
end

