-- ==== Sys2Proof/Laws/Buffers.lean ====
section
/-! SUPPORT. What the buffer operations give, byte by byte, and the passage between a buffer and its byte string. -/

namespace Sys2Proof

theorem Buf.get_eq_getElem {n i : Nat} (v : Buf n) (h : i < n) : Buf.get v i = v[i] := by simp [Buf.get, h]

theorem Buf.get_of_ge {n i : Nat} (v : Buf n) (h : n ≤ i) : Buf.get v i = 0 := by
  simp [Buf.get, Nat.not_lt.mpr h]

/-- Two buffers with the same bytes are the same. -/
theorem Buf.ext_get {n : Nat} {v w : Buf n} (h : ∀ i, i < n → Buf.get v i = Buf.get w i) : v = w := by
  refine Vector.ext fun i hi => ?_
  simpa [Buf.get_eq_getElem, hi] using h i hi

theorem Buf.get_zero (n i : Nat) : Buf.get (Buf.zero n) i = 0 := by
  by_cases h : i < n <;> simp [Buf.get, Buf.zero, h]

theorem Buf.get_slice {n : Nat} (v : Buf n) (off len i : Nat) :
    Buf.get (Buf.slice v off len) i = if i < len then Buf.get v (off + i) else 0 := by
  by_cases h : i < len
  · simp [Buf.get_eq_getElem _ h, Buf.slice, h]
  · simp [Buf.get, h]

theorem Buf.get_splice {n m : Nat} (v : Buf n) (off : Nat) (src : Buf m) (i : Nat) :
    Buf.get (Buf.splice v off src) i =
      if i < n ∧ off ≤ i ∧ i < off + m then Buf.get src (i - off) else Buf.get v i := by
  by_cases h : i < n
  · simp [Buf.get_eq_getElem _ h, Buf.splice, h]
  · simp [Buf.get, h]

theorem Buf.get_ofBytes (n : Nat) (l : Bytes) (i : Nat) :
    Buf.get (Buf.ofBytes n l) i = if i < n then l.getD i 0 else 0 := by
  by_cases h : i < n
  · simp [Buf.get_eq_getElem _ h, Buf.ofBytes, h]
  · simp [Buf.get, h]

theorem Buf.get_put {n : Nat} (v : Buf n) (j i : Nat) (b : Byte) :
    Buf.get (Buf.put v j b) i = if i = j ∧ j < n then b else Buf.get v i := by
  by_cases hj : j < n
  · by_cases hi : i < n
    · by_cases e : i = j
      · subst e; simp [Buf.put, Buf.get, hj]
      · simp [Buf.put, Buf.get, hj, hi, e, Ne.symm e]
    · have : i ≠ j := by omega
      simp [Buf.get, hi, this]
  · simp [Buf.put, hj]

@[simp] theorem Buf.length_bytes {n : Nat} (v : Buf n) : (Buf.bytes v).length = n := by simp [Buf.bytes]

theorem Buf.getD_bytes {n : Nat} (v : Buf n) (i : Nat) : (Buf.bytes v).getD i 0 = Buf.get v i := by
  by_cases h : i < n <;> simp [Buf.bytes, Buf.get, h, List.getD]

/-- A buffer is recovered from its byte string. -/
@[simp] theorem Buf.ofBytes_bytes {n : Nat} (v : Buf n) : Buf.ofBytes n (Buf.bytes v) = v :=
  Buf.ext_get fun i hi => by rw [Buf.get_ofBytes, if_pos hi, Buf.getD_bytes]

theorem Buf.bytes_inj {n : Nat} {v w : Buf n} : Buf.bytes v = Buf.bytes w ↔ v = w :=
  ⟨fun h => by rw [← Buf.ofBytes_bytes v, h, Buf.ofBytes_bytes], fun h => by rw [h]⟩

/-- A byte string of the right length is recovered from its buffer. -/
theorem Buf.bytes_ofBytes {n : Nat} {l : Bytes} (h : l.length = n) : Buf.bytes (Buf.ofBytes n l) = l := by
  subst h
  refine List.ext_getElem (by simp) fun i _ hi => ?_
  have := Buf.getD_bytes (Buf.ofBytes l.length l) i
  rw [Buf.get_ofBytes, if_pos hi] at this
  simpa [List.getD, hi] using this

/-- The first `m` bytes of a buffer filled from a string of at most `n` bytes, when `m` is that string's length. -/
theorem Buf.take_bytes_ofBytes {n : Nat} {l : Bytes} (h : l.length ≤ n) :
    (Buf.bytes (Buf.ofBytes n l)).take l.length = l := by
  refine List.ext_getElem (by simp [h]) fun i h₁ hi => ?_
  have := Buf.getD_bytes (Buf.ofBytes n l) i
  rw [Buf.get_ofBytes, if_pos (by omega)] at this
  have hn : i < n := by omega
  simpa [List.getD, hi, hn] using this

namespace Machine

/-- The comparator says whether two buffers are the same (R146). -/
theorem eqBytes_iff {n : Nat} (a b : Buf n) : eqBytes a b = true ↔ a = b := by
  simp [eqBytes, Buf.bytes_inj]

theorem get_xor16 (a b : Buf 16) (i : Nat) :
    Buf.get (xor16 a b) i = if i < 16 then Buf.get a i ^^^ Buf.get b i else 0 := by
  by_cases h : i < 16
  · simp [Buf.get_eq_getElem _ h, xor16, h]
  · simp [Buf.get, h]

end Machine

end Sys2Proof
end

