-- ==== Sys2Proof/Laws/Decode.lean ====
section
/-! SUPPORT. Decoding each request a port can be sent. -/

namespace Sys2Proof

theorem decodePort_aesEnc (key : Buf 32) (block : Buf 16) :
    decodePort ⟨0b00000, [Buf.bytes key, Buf.bytes block]⟩ = .ok (.aesEnc key block) := by
  simp [decodePort]

theorem decodePort_aesDec (key : Buf 32) (block : Buf 16) :
    decodePort ⟨0b00001, [Buf.bytes key, Buf.bytes block]⟩ = .ok (.aesDec key block) := by
  simp [decodePort]

theorem decodePort_sha256d (msg : Bytes) : decodePort ⟨0b00010, [msg]⟩ = .ok (.sha256d msg) := by
  simp [decodePort]

theorem decodePort_scrypt (password : Bytes) (salt : Buf 4) :
    decodePort ⟨0b00100, [password, Buf.bytes salt]⟩ = .ok (.scrypt password salt) := by
  simp [decodePort]

theorem decodePort_nfc8 {text : Bytes} (h : text.length ≤ 255) :
    decodePort ⟨0b00110, [text]⟩ = .ok (.nfc8 text) := by
  simp [decodePort, h]

theorem decodePort_ecpub (priv : Buf 32) : decodePort ⟨0b01000, [Buf.bytes priv]⟩ = .ok (.ecpub priv) := by
  simp [decodePort]

theorem decodePort_eccomp (pub : Bytes) : decodePort ⟨0b01010, [pub]⟩ = .ok (.eccomp pub) := by
  simp [decodePort]

theorem decodePort_address (pub : Bytes) : decodePort ⟨0b01100, [pub]⟩ = .ok (.address pub) := by
  simp [decodePort]

theorem decodePort_b58enc (blob : Buf 43) : decodePort ⟨0b01110, [Buf.bytes blob]⟩ = .ok (.b58enc blob) := by
  simp [decodePort]

theorem decodePort_b58dec43 {str : Bytes} (h : str.length ≤ 64) :
    decodePort ⟨0b10000, [str]⟩ = .ok (.b58dec43 str) := by
  simp [decodePort, h]

/-- The direction bit of a host access. -/
theorem accessWord_direction (d : BitVec 1) (a : Addr) (v : Byte) :
    (accessWord d a v).getLsbD 17 = d.getLsbD 0 := by
  simp [accessWord]

/-- The address field of a host access. -/
theorem accessWord_address (d : BitVec 1) (a : Addr) (v : Byte) : (accessWord d a v).extractLsb' 8 9 = a := by
  refine BitVec.eq_of_getLsbD_eq fun i hi => ?_
  have h : 8 + i < 17 := by omega
  have h' : 8 + i < 18 := by omega
  simp [accessWord, h, h', hi]

/-- The data field of a host access. -/
theorem accessWord_data (d : BitVec 1) (a : Addr) (v : Byte) : (accessWord d a v).extractLsb' 0 8 = v := by
  refine BitVec.eq_of_getLsbD_eq fun i hi => ?_
  have h : i < 17 := by omega
  simp [accessWord, h, hi]
  omega

@[simp] theorem decodeAccess_write (a : Addr) (v : Byte) : decodeAccess (accessWord 1 a v) = .wr a v := by
  rw [decodeAccess, accessWord_direction, accessWord_address, accessWord_data]
  rfl

@[simp] theorem decodeAccess_read (a : Addr) (v : Byte) : decodeAccess (accessWord 0 a v) = .rd a := by
  rw [decodeAccess, accessWord_direction, accessWord_address]
  rfl

end Sys2Proof
end

