-- ==== Sys2Proof/Laws/State.lean ====
section
/-! SUPPORT. For each named update of the state, what each field holds after it. -/

namespace Sys2Proof.Machine

variable (s : State)

@[simp] theorem State.raise_cin (e : ErrorKind) : (s.raise e).cin = ClassIn.zero := rfl
@[simp] theorem State.raise_cout (e : ErrorKind) : (s.raise e).cout = ClassOut.zero := rfl
@[simp] theorem State.raise_status (e : ErrorKind) : (s.raise e).status = statusError := rfl
@[simp] theorem State.raise_errcode (e : ErrorKind) : (s.raise e).errcode = e.code := rfl
@[simp] theorem State.raise_cint (e : ErrorKind) : (s.raise e).cint = ClassInt.zero := rfl
@[simp] theorem State.raise_trace (e : ErrorKind) : (s.raise e).trace = s.trace := rfl
@[simp] theorem State.raise_host (e : ErrorKind) : (s.raise e).host = s.host := rfl

@[simp] theorem State.complete_cin : s.complete.cin = ClassIn.zero := rfl
@[simp] theorem State.complete_cout : s.complete.cout = s.cout := rfl
@[simp] theorem State.complete_status : s.complete.status = statusDone := rfl
@[simp] theorem State.complete_errcode : s.complete.errcode = s.errcode := rfl
@[simp] theorem State.complete_cint : s.complete.cint = ClassInt.zero := rfl
@[simp] theorem State.complete_trace : s.complete.trace = s.trace := rfl
@[simp] theorem State.complete_host : s.complete.host = s.host := rfl

@[simp] theorem State.clearResult_cin : s.clearResult.cin = s.cin := rfl
@[simp] theorem State.clearResult_cout : s.clearResult.cout = ClassOut.zero := rfl
@[simp] theorem State.clearResult_status : s.clearResult.status = 0x00 := rfl
@[simp] theorem State.clearResult_errcode : s.clearResult.errcode = 0x00 := rfl
@[simp] theorem State.clearResult_cint : s.clearResult.cint = s.cint := rfl
@[simp] theorem State.clearResult_trace : s.clearResult.trace = [] := rfl
@[simp] theorem State.clearResult_host : s.clearResult.host = s.host := rfl

@[simp] theorem State.begin_cin (op : Op) (p : Phase) : (s.begin op p).cin = s.cin := rfl
@[simp] theorem State.begin_cout (op : Op) (p : Phase) : (s.begin op p).cout = ClassOut.zero := rfl
@[simp] theorem State.begin_status (op : Op) (p : Phase) : (s.begin op p).status = statusBusy := rfl
@[simp] theorem State.begin_errcode (op : Op) (p : Phase) : (s.begin op p).errcode = 0x00 := rfl
@[simp] theorem State.begin_cint (op : Op) (p : Phase) :
    (s.begin op p).cint = { s.cint with op := op, phase := p } := rfl
@[simp] theorem State.begin_trace (op : Op) (p : Phase) : (s.begin op p).trace = [] := rfl
@[simp] theorem State.begin_host (op : Op) (p : Phase) : (s.begin op p).host = s.host := rfl

@[simp] theorem State.toReset_cin : s.toReset.cin = ClassIn.zero := rfl
@[simp] theorem State.toReset_cout : s.toReset.cout = ClassOut.zero := rfl
@[simp] theorem State.toReset_status : s.toReset.status = 0x00 := rfl
@[simp] theorem State.toReset_errcode : s.toReset.errcode = 0x00 := rfl
@[simp] theorem State.toReset_cint : s.toReset.cint = ClassInt.zero := rfl
@[simp] theorem State.toReset_trace : s.toReset.trace = [] := rfl
@[simp] theorem State.toReset_host : s.toReset.host = s.host := rfl

@[simp] theorem State.illegalCommand_cin : s.illegalCommand.cin = ClassIn.zero := rfl
@[simp] theorem State.illegalCommand_cout : s.illegalCommand.cout = ClassOut.zero := rfl
@[simp] theorem State.illegalCommand_status : s.illegalCommand.status = statusError := rfl
@[simp] theorem State.illegalCommand_errcode : s.illegalCommand.errcode = 0x06 := rfl
@[simp] theorem State.illegalCommand_cint : s.illegalCommand.cint = ClassInt.zero := rfl
@[simp] theorem State.illegalCommand_trace : s.illegalCommand.trace = [] := rfl
@[simp] theorem State.illegalCommand_host : s.illegalCommand.host = s.host := rfl

@[simp] theorem State.writeIn_cin (a : Addr) (v : Byte) : (s.writeIn a v).cin = s.cin.write a v := rfl
@[simp] theorem State.writeIn_cout (a : Addr) (v : Byte) : (s.writeIn a v).cout = s.cout := rfl
@[simp] theorem State.writeIn_status (a : Addr) (v : Byte) : (s.writeIn a v).status = s.status := rfl
@[simp] theorem State.writeIn_errcode (a : Addr) (v : Byte) : (s.writeIn a v).errcode = s.errcode := rfl
@[simp] theorem State.writeIn_cint (a : Addr) (v : Byte) : (s.writeIn a v).cint = s.cint := rfl
@[simp] theorem State.writeIn_trace (a : Addr) (v : Byte) : (s.writeIn a v).trace = s.trace := rfl
@[simp] theorem State.writeIn_host (a : Addr) (v : Byte) : (s.writeIn a v).host = s.host := rfl

@[simp] theorem State.returned_cin (b : Byte) : (s.returned b).cin = s.cin := rfl
@[simp] theorem State.returned_cout (b : Byte) : (s.returned b).cout = s.cout := rfl
@[simp] theorem State.returned_status (b : Byte) : (s.returned b).status = s.status := rfl
@[simp] theorem State.returned_errcode (b : Byte) : (s.returned b).errcode = s.errcode := rfl
@[simp] theorem State.returned_cint (b : Byte) : (s.returned b).cint = s.cint := rfl
@[simp] theorem State.returned_trace (b : Byte) : (s.returned b).trace = s.trace := rfl
@[simp] theorem State.returned_host (b : Byte) :
    (s.returned b).host = { s.host with reads := s.host.reads ++ [b] } := rfl

@[simp] theorem State.answered_cin (w : PortWord) (r : Option Bytes) : (s.answered w r).cin = s.cin := rfl
@[simp] theorem State.answered_cout (w : PortWord) (r : Option Bytes) : (s.answered w r).cout = s.cout := rfl
@[simp] theorem State.answered_status (w : PortWord) (r : Option Bytes) : (s.answered w r).status = s.status := rfl
@[simp] theorem State.answered_errcode (w : PortWord) (r : Option Bytes) :
    (s.answered w r).errcode = s.errcode := rfl
@[simp] theorem State.answered_cint (w : PortWord) (r : Option Bytes) :
    (s.answered w r).cint = { s.cint with resp := r } := rfl
@[simp] theorem State.answered_trace (w : PortWord) (r : Option Bytes) :
    (s.answered w r).trace = s.trace ++ [{ request := w, answer := r }] := rfl
@[simp] theorem State.answered_host (w : PortWord) (r : Option Bytes) : (s.answered w r).host = s.host := rfl

@[simp] theorem State.withAgenda_cin (l : List HostEvent) : (s.withAgenda l).cin = s.cin := rfl
@[simp] theorem State.withAgenda_cout (l : List HostEvent) : (s.withAgenda l).cout = s.cout := rfl
@[simp] theorem State.withAgenda_status (l : List HostEvent) : (s.withAgenda l).status = s.status := rfl
@[simp] theorem State.withAgenda_errcode (l : List HostEvent) : (s.withAgenda l).errcode = s.errcode := rfl
@[simp] theorem State.withAgenda_cint (l : List HostEvent) : (s.withAgenda l).cint = s.cint := rfl
@[simp] theorem State.withAgenda_trace (l : List HostEvent) : (s.withAgenda l).trace = s.trace := rfl
@[simp] theorem State.withAgenda_host (l : List HostEvent) :
    (s.withAgenda l).host = { s.host with agenda := l } := rfl

@[simp] theorem State.advance_cin (p : Phase) (r : ClassInt) : (s.advance p r).cin = s.cin := rfl
@[simp] theorem State.advance_cout (p : Phase) (r : ClassInt) : (s.advance p r).cout = s.cout := rfl
@[simp] theorem State.advance_status (p : Phase) (r : ClassInt) : (s.advance p r).status = s.status := rfl
@[simp] theorem State.advance_errcode (p : Phase) (r : ClassInt) : (s.advance p r).errcode = s.errcode := rfl
@[simp] theorem State.advance_cint (p : Phase) (r : ClassInt) :
    (s.advance p r).cint = { r with phase := p, resp := none } := rfl
@[simp] theorem State.advance_trace (p : Phase) (r : ClassInt) : (s.advance p r).trace = s.trace := rfl
@[simp] theorem State.advance_host (p : Phase) (r : ClassInt) : (s.advance p r).host = s.host := rfl

@[simp] theorem State.reset_cin : State.reset.cin = ClassIn.zero := rfl
@[simp] theorem State.reset_cout : State.reset.cout = ClassOut.zero := rfl
@[simp] theorem State.reset_status : State.reset.status = 0x00 := rfl
@[simp] theorem State.reset_errcode : State.reset.errcode = 0x00 := rfl
@[simp] theorem State.reset_cint : State.reset.cint = ClassInt.zero := rfl
@[simp] theorem State.reset_trace : State.reset.trace = [] := rfl
@[simp] theorem State.reset_host : State.reset.host = { agenda := [], reads := [] } := rfl

@[simp] theorem ClassInt.zero_phase : ClassInt.zero.phase = .idle := rfl
@[simp] theorem ClassInt.zero_op : ClassInt.zero.op = .none := rfl
@[simp] theorem ClassInt.zero_resp : ClassInt.zero.resp = none := rfl
@[simp] theorem ClassInt.zero_s : ClassInt.zero.s = [] := rfl
@[simp] theorem ClassIn.zero_ctrl : ClassIn.zero.ctrl = 0x00 := rfl
@[simp] theorem ClassOut.zero_outFlags : ClassOut.zero.outFlags = 0x00 := rfl
@[simp] theorem ClassOut.zero_outElen : ClassOut.zero.outElen = 0x00 := rfl
@[simp] theorem ClassOut.zero_estrOut : ClassOut.zero.estrOut = Buf.zero 64 := rfl
@[simp] theorem ClassOut.zero_keyOut : ClassOut.zero.keyOut = Buf.zero 32 := rfl

end Sys2Proof.Machine
end

