-- ==== Sys2Proof/Laws/Generic.lean ====
section
/-! SUPPORT. The machine over the chip's own parameters is the machine. -/

namespace Sys2Proof.Machine

theorem execWith_attached (i : Instr) (s : State) : execWith Config.attached i s = exec i s := by
  cases i <;> rfl

theorem stepWith_attached (s : State) : stepWith Config.attached s = step s := by
  have h : execWith Config.attached = exec := funext fun i => funext fun s => execWith_attached i s
  simp [stepWith, step, h]

/-- A run over any parameters, one step at a time, while each step answers a next state. -/
theorem runWith_succ {C : Capabilities} {n : Nat} {s t : State} (h : stepWith C s = .next t) :
    runWith C (n + 1) s = runWith C n t := by
  simp [runWith, h]

/-- The host's run of the machine, one step at a time, while each step answers a next state. -/
theorem core_run_succ {n : Nat} {s t : State} (h : step s = .next t) :
    Sys2Proof.core.run (n + 1) s = Sys2Proof.core.run n t := by
  have e := Host.Core.run.eq_2 Sys2Proof.core s n
  have h' : Sys2Proof.core.step s = .next t := h
  rw [h'] at e
  exact e

end Sys2Proof.Machine
end

