-- ==== Sys2Proof/Laws/Ops.lean ====
section
/-! SUPPORT. What the shared operations do, each said once: the byte the address map gives for each kind of address,
what a class-IN write leaves, what a command byte does, and that a host access always answers a next state. -/

namespace Sys2Proof.Machine

/-! ### The passphrase on its way to scrypt (R24, R127, R129) -/

@[simp] theorem normalise_nil (C : Capabilities) : normalise C [] = [] := rfl

theorem normalise_of_ne_nil (C : Capabilities) {text : Bytes} (h : text ≠ []) : normalise C text = C.nfc8 text :=
  if_neg h

/-- P-NFC-EMPTY holds of every port (R129). -/
theorem pNfcEmpty_all (C : Capabilities) : pNfcEmpty C := rfl

/-- The cost parameters are 16384, 8 and 8 (R7, R127). -/
theorem stretch_eq (C : Capabilities) (password : Bytes) (salt : Buf 4) :
    stretch C password salt = C.scrypt 16384 8 8 password salt := rfl

/-- The passphrase operand is empty exactly when PLEN = 0 (R24). -/
theorem passphrase_eq_nil {s : State} : s.passphrase = [] ↔ s.cin.plen = 0x00 := by
  have h : s.cin.pass.toList ≠ [] := fun e => by simpa using congrArg List.length e
  simp [State.passphrase, Buf.bytes, List.take_eq_nil_iff, h, ← BitVec.toNat_inj]

/-! ### The address map (R66) -/

theorem toNat_addr {n : Nat} (h : n < 512) : (BitVec.ofNat 9 n).toNat = n := by
  simp [Nat.mod_eq_of_lt h]

section Map

variable (cap : BitVec 9) (s : State) {a : Addr}

theorem mapByte_keyIn (h : 0x020 ≤ a.toNat ∧ a.toNat ≤ 0x03F) :
    s.mapByte cap a = Buf.get s.cin.keyIn (a.toNat - 0x020) := by
  unfold State.mapByte
  simp only
  repeat rw [if_neg (by omega)]
  rw [if_pos h]

theorem mapByte_keyOut (h : 0x040 ≤ a.toNat ∧ a.toNat ≤ 0x05F) :
    s.mapByte cap a = Buf.get s.cout.keyOut (a.toNat - 0x040) := by
  unfold State.mapByte
  simp only
  repeat rw [if_neg (by omega)]
  rw [if_pos h]

theorem mapByte_estrIn (h : 0x080 ≤ a.toNat ∧ a.toNat ≤ 0x0BF) :
    s.mapByte cap a = Buf.get s.cin.estrIn (a.toNat - 0x080) := by
  unfold State.mapByte
  simp only
  repeat rw [if_neg (by omega)]
  rw [if_pos h]

theorem mapByte_estrOut (h : 0x0C0 ≤ a.toNat ∧ a.toNat ≤ 0x0FF) :
    s.mapByte cap a = Buf.get s.cout.estrOut (a.toNat - 0x0C0) := by
  unfold State.mapByte
  simp only
  repeat rw [if_neg (by omega)]
  rw [if_pos h]

theorem mapByte_pass (h : 0x100 ≤ a.toNat ∧ a.toNat ≤ 0x1FE) :
    s.mapByte cap a = Buf.get s.cin.pass (a.toNat - 0x100) := by
  unfold State.mapByte
  simp only
  repeat rw [if_neg (by omega)]
  rw [if_pos h]

/-- CMD and the reserved addresses read as 0x00 (R30, R65). -/
theorem mapByte_reserved
    (h : a.toNat = 0 ∨ (0x00A ≤ a.toNat ∧ a.toNat ≤ 0x01F) ∨ (0x060 ≤ a.toNat ∧ a.toNat ≤ 0x07F) ∨ 0x1FF ≤ a.toNat) :
    s.mapByte cap a = 0x00 := by
  unfold State.mapByte
  simp only
  repeat rw [if_neg (by omega)]

/-- The map reads classes IN and OUT, STATUS, ERRCODE and the strap, and nothing else (R54). -/
theorem mapByte_congr {s t : State} (hi : t.cin = s.cin) (ho : t.cout = s.cout) (hs : t.status = s.status)
    (he : t.errcode = s.errcode) (a : Addr) : t.mapByte cap a = s.mapByte cap a := by
  simp only [State.mapByte, hi, ho, hs, he]

end Map

theorem memRead_busy {cap : BitVec 9} {s : State} (h : s.busy = true) (a : Addr) :
    s.memRead cap a = if a = 0x001 then s.status &&& statusMask else 0x00 := by
  simp [State.memRead, h]

theorem memRead_idle {cap : BitVec 9} {s : State} (h : s.busy = false) (a : Addr) :
    s.memRead cap a = s.mapByte cap a := by
  simp [State.memRead, h]

/-- What the host reads depends on classes IN and OUT, STATUS, ERRCODE and the strap alone (R54, R62). -/
theorem memRead_congr {cap : BitVec 9} {s t : State} (hi : t.cin = s.cin) (ho : t.cout = s.cout)
    (hs : t.status = s.status) (he : t.errcode = s.errcode) (a : Addr) : t.memRead cap a = s.memRead cap a := by
  have hb : t.busy = s.busy := by unfold State.busy; rw [hs]
  unfold State.memRead
  rw [hb, hs, mapByte_congr cap hi ho hs he]

/-- The high byte of the strap is its bit 8 (R33). -/
theorem capHi_eq (cap : BitVec 9) : capHi cap = if cap.getLsbD 8 then 0x01 else 0x00 := by
  revert cap
  decide

/-! ### Class-IN writes (R63) -/

/-- A write to an address of no class-IN byte leaves class IN as it is. -/
theorem write_of_not_classIn {a : Addr} (h : isClassIn a = false) (c : ClassIn) (v : Byte) : c.write a v = c := by
  simp [isClassIn] at h
  unfold ClassIn.write
  simp only
  repeat rw [if_neg (by omega)]

section Write

variable (c : ClassIn) (v : Byte) {a : Addr}

theorem write_ctrl (h : a.toNat = 0x003) : c.write a v = { c with ctrl := v &&& ctrlMask } := by
  have ha : a = 0x003 := BitVec.eq_of_toNat_eq h
  simp [ClassIn.write, keptByte, ha]

theorem write_plen (h : a.toNat = 0x004) : c.write a v = { c with plen := v } := by
  simp [ClassIn.write, h]

theorem write_elenIn (h : a.toNat = 0x005) : c.write a v = { c with elenIn := v } := by
  simp [ClassIn.write, h]

theorem write_keyIn (h : 0x020 ≤ a.toNat ∧ a.toNat ≤ 0x03F) :
    c.write a v = { c with keyIn := Buf.put c.keyIn (a.toNat - 0x020) v } := by
  unfold ClassIn.write
  simp only
  repeat rw [if_neg (by omega)]
  rw [if_pos h]

theorem write_estrIn (h : 0x080 ≤ a.toNat ∧ a.toNat ≤ 0x0BF) :
    c.write a v = { c with estrIn := Buf.put c.estrIn (a.toNat - 0x080) v } := by
  unfold ClassIn.write
  simp only
  repeat rw [if_neg (by omega)]
  rw [if_pos h]

theorem write_pass (h : 0x100 ≤ a.toNat ∧ a.toNat ≤ 0x1FE) :
    c.write a v = { c with pass := Buf.put c.pass (a.toNat - 0x100) v } := by
  unfold ClassIn.write
  simp only
  repeat rw [if_neg (by omega)]
  rw [if_pos h]

/-- The class-IN addresses, one form each. -/
theorem classIn_cases (h : isClassIn a = true) :
    a.toNat = 0x003 ∨ a.toNat = 0x004 ∨ a.toNat = 0x005 ∨ (0x020 ≤ a.toNat ∧ a.toNat ≤ 0x03F) ∨
      (0x080 ≤ a.toNat ∧ a.toNat ≤ 0x0BF) ∨ (0x100 ≤ a.toNat ∧ a.toNat ≤ 0x1FE) := by
  simp [isClassIn] at h
  omega

/-- A class-IN write keeps CTRL's reserved bits as they are, or forces them to 0 (R23). -/
theorem write_ctrl_reserved (h : c.ctrl &&& ctrlMask = c.ctrl) :
    (c.write a v).ctrl &&& ctrlMask = (c.write a v).ctrl := by
  unfold ClassIn.write
  simp only
  split
  · next h3 =>
    have ha : a = 0x003 := BitVec.eq_of_toNat_eq h3
    simp [keptByte, ha, BitVec.and_assoc]
  · repeat' split
    all_goals exact h

end Write

/-! ### Command bytes and host accesses -/

/-- What the instruction of a command byte does (R91, R232, R233). -/
theorem exec_decodeCommand (v : Byte) (s : State) :
    exec (decodeCommand v) s = s.onCommand fun s =>
      if v = 0x01 then s.begin .enc .eStart else if v = 0x02 then s.begin .dec .dStart
      else if v = 0x03 then s.toReset else s.illegalCommand := by
  unfold decodeCommand
  by_cases h1 : v = 0x01
  · simp only [h1, if_true]; rfl
  by_cases h2 : v = 0x02
  · simp only [h2]; rfl
  by_cases h3 : v = 0x03
  · simp only [h3]; rfl
  simp only [h1, h2, h3, if_false]
  repeat' split
  all_goals rfl

/-- What a write to CMD does while BUSY = 0 (R91). -/
theorem startCommand_eq {s : State} (h : s.busy = false) (v : Byte) :
    startCommand v s = .next
      (if v = 0x01 then s.begin .enc .eStart else if v = 0x02 then s.begin .dec .dStart
       else if v = 0x03 then s.toReset else s.illegalCommand) := by
  unfold startCommand
  repeat' split
  all_goals simp [execEnc, execDec, execClr, State.onCommand, h]

/-- What a host write does, in one equation (R63, R64, R91). -/
theorem execWr_eq (a : Addr) (v : Byte) (s : State) :
    execWr a v s = .next
      (if s.busy then s
       else if a = 0x000 then
         (if v = 0x01 then s.begin .enc .eStart else if v = 0x02 then s.begin .dec .dStart
          else if v = 0x03 then s.toReset else s.illegalCommand)
       else s.writeIn a v) := by
  unfold execWr
  cases hb : s.busy
  · by_cases ha : a = 0x000
    · simp only [ha, if_true]
      exact startCommand_eq hb v
    · simp only [ha, if_false]
      rfl
  · rfl

/-- What a host access does, in one equation: a write as `execWr_eq` says, a read returns a byte (R62). -/
theorem execWith_access (C : Capabilities) (w : BitVec 18) (s : State) :
    (∃ a v, decodeAccess w = .wr a v ∧ execWith C (decodeAccess w) s = execWr a v s) ∨
      ∃ a, decodeAccess w = .rd a ∧ execWith C (decodeAccess w) s = .next (s.returned (s.memRead C.cap a)) := by
  unfold decodeAccess
  split
  · exact .inl ⟨_, _, rfl, rfl⟩
  · exact .inr ⟨_, rfl, rfl⟩

end Sys2Proof.Machine
end

