-- ==== Sys2Proof/Laws/PerInstr.lean ====
section
/-! SUPPORT. Facts about every instruction as syntax, one lemma per constructor. -/

namespace Sys2Proof.Laws

/-- A row of spec/opcode_table.json: its width, mask and match. -/
structure TableEntry where
  width : Nat
  mask : Nat
  pattern : Nat
  deriving DecidableEq, Repr

/-- The opcode-table row of each constructor. -/
def tableEntry : Instr → TableEntry
  | .enc => ⟨8, 0xFF, 0x01⟩
  | .dec => ⟨8, 0xFF, 0x02⟩
  | .clr => ⟨8, 0xFF, 0x03⟩
  | .illegal00 => ⟨8, 0xFF, 0x00⟩
  | .illegal04 _ => ⟨8, 0xFC, 0x04⟩
  | .illegal08 _ => ⟨8, 0xF8, 0x08⟩
  | .illegal10 _ => ⟨8, 0xF0, 0x10⟩
  | .illegal20 _ => ⟨8, 0xE0, 0x20⟩
  | .illegal40 _ => ⟨8, 0xC0, 0x40⟩
  | .illegal80 _ => ⟨8, 0x80, 0x80⟩
  | .aesEnc _ _ => ⟨5, 0x1F, 0x00⟩
  | .aesDec _ _ => ⟨5, 0x1F, 0x01⟩
  | .sha256d _ => ⟨5, 0x1F, 0x02⟩
  | .scrypt _ _ => ⟨5, 0x1F, 0x04⟩
  | .nfc8 _ => ⟨5, 0x1F, 0x06⟩
  | .ecpub _ => ⟨5, 0x1F, 0x08⟩
  | .eccomp _ => ⟨5, 0x1F, 0x0A⟩
  | .address _ => ⟨5, 0x1F, 0x0C⟩
  | .b58enc _ => ⟨5, 0x1F, 0x0E⟩
  | .b58dec43 _ => ⟨5, 0x1F, 0x10⟩
  | .wr _ _ => ⟨18, 0x20000, 0x20000⟩
  | .rd _ => ⟨18, 0x20000, 0x00000⟩

/-- The width of a word's format. -/
def wordWidth : FetchWord → Nat
  | .cmd8 _ => 8
  | .portsel _ => 5
  | .hostacc _ => 18

/-- The bits of a word that the opcode table numbers. -/
def wordBits : FetchWord → Nat
  | .cmd8 v => v.toNat
  | .portsel w => w.selector.toNat
  | .hostacc w => w.toNat

/-- The encoding of a well-formed instruction has its row's width and meets its row's mask and match. -/
def EncodesItsRow.Statement (i : Instr) : Prop :=
  i.wf = true →
    wordWidth (encode i) = (tableEntry i).width ∧
      wordBits (encode i) &&& (tableEntry i).mask = (tableEntry i).pattern

/-- A command byte that matches a row's mask, as numbers. -/
theorem rowMatches_toNat {mask pattern v : Byte} (h : rowMatches mask pattern v = true) :
    v.toNat &&& mask.toNat = pattern.toNat := by
  have h' : v &&& mask = pattern := by simpa [rowMatches] using h
  rw [← h', BitVec.toNat_and]

theorem EncodesItsRow.enc : EncodesItsRow.Statement .enc := fun _ => ⟨rfl, rfl⟩
theorem EncodesItsRow.dec : EncodesItsRow.Statement .dec := fun _ => ⟨rfl, rfl⟩
theorem EncodesItsRow.clr : EncodesItsRow.Statement .clr := fun _ => ⟨rfl, rfl⟩
theorem EncodesItsRow.illegal00 : EncodesItsRow.Statement .illegal00 := fun _ => ⟨rfl, rfl⟩
theorem EncodesItsRow.illegal04 (v : Byte) : EncodesItsRow.Statement (.illegal04 v) :=
  fun h => ⟨rfl, rowMatches_toNat h⟩
theorem EncodesItsRow.illegal08 (v : Byte) : EncodesItsRow.Statement (.illegal08 v) :=
  fun h => ⟨rfl, rowMatches_toNat h⟩
theorem EncodesItsRow.illegal10 (v : Byte) : EncodesItsRow.Statement (.illegal10 v) :=
  fun h => ⟨rfl, rowMatches_toNat h⟩
theorem EncodesItsRow.illegal20 (v : Byte) : EncodesItsRow.Statement (.illegal20 v) :=
  fun h => ⟨rfl, rowMatches_toNat h⟩
theorem EncodesItsRow.illegal40 (v : Byte) : EncodesItsRow.Statement (.illegal40 v) :=
  fun h => ⟨rfl, rowMatches_toNat h⟩
theorem EncodesItsRow.illegal80 (v : Byte) : EncodesItsRow.Statement (.illegal80 v) :=
  fun h => ⟨rfl, rowMatches_toNat h⟩
theorem EncodesItsRow.aesEnc (key : Buf 32) (block : Buf 16) : EncodesItsRow.Statement (.aesEnc key block) :=
  fun _ => ⟨rfl, by simp [wordBits, encode, tableEntry]⟩
theorem EncodesItsRow.aesDec (key : Buf 32) (block : Buf 16) : EncodesItsRow.Statement (.aesDec key block) :=
  fun _ => ⟨rfl, by simp [wordBits, encode, tableEntry]⟩
theorem EncodesItsRow.sha256d (msg : Bytes) : EncodesItsRow.Statement (.sha256d msg) := fun _ => ⟨rfl, by simp [wordBits, encode, tableEntry]⟩
theorem EncodesItsRow.scrypt (password : Bytes) (salt : Buf 4) : EncodesItsRow.Statement (.scrypt password salt) :=
  fun _ => ⟨rfl, by simp [wordBits, encode, tableEntry]⟩
theorem EncodesItsRow.nfc8 (text : Bytes) : EncodesItsRow.Statement (.nfc8 text) := fun _ => ⟨rfl, by simp [wordBits, encode, tableEntry]⟩
theorem EncodesItsRow.ecpub (priv : Buf 32) : EncodesItsRow.Statement (.ecpub priv) := fun _ => ⟨rfl, by simp [wordBits, encode, tableEntry]⟩
theorem EncodesItsRow.eccomp (pub : Bytes) : EncodesItsRow.Statement (.eccomp pub) := fun _ => ⟨rfl, by simp [wordBits, encode, tableEntry]⟩
theorem EncodesItsRow.address (pub : Bytes) : EncodesItsRow.Statement (.address pub) := fun _ => ⟨rfl, by simp [wordBits, encode, tableEntry]⟩
theorem EncodesItsRow.b58enc (blob : Buf 43) : EncodesItsRow.Statement (.b58enc blob) := fun _ => ⟨rfl, by simp [wordBits, encode, tableEntry]⟩
theorem EncodesItsRow.b58dec43 (str : Bytes) : EncodesItsRow.Statement (.b58dec43 str) := fun _ => ⟨rfl, by simp [wordBits, encode, tableEntry]⟩

/-- Bit 17 of a number of 18 bits, as the mask of the HOSTACC rows reads it. -/
theorem direction_bit (w : BitVec 18) : w.toNat &&& 0x20000 = if w.getLsbD 17 then 0x20000 else 0 := by
  have h : w.toNat &&& 2 ^ 17 = (w.toNat.testBit 17).toNat * 2 ^ 17 := Nat.and_two_pow w.toNat 17
  rw [show (0x20000 : Nat) = 2 ^ 17 from rfl, h, BitVec.getLsbD]
  cases w.toNat.testBit 17 <;> rfl

theorem EncodesItsRow.wr (a : Addr) (v : Byte) : EncodesItsRow.Statement (.wr a v) :=
  fun _ => ⟨rfl, (direction_bit (accessWord 1 a v)).trans (by rw [accessWord_direction]; rfl)⟩
theorem EncodesItsRow.rd (a : Addr) : EncodesItsRow.Statement (.rd a) :=
  fun _ => ⟨rfl, (direction_bit (accessWord 0 a 0)).trans (by rw [accessWord_direction]; rfl)⟩

end Sys2Proof.Laws
end

