-- ==== Sys2Proof/Laws/Sequencer.lean ====
section
/-! SUPPORT. What one turn of the sequencer can do: it always gives a next state, the phase performed on the state in
which the phase's request has been answered; and what that request and answer are, phase by phase. -/

namespace Sys2Proof.Machine

theorem length_passphrase_le (s : State) : s.passphrase.length ≤ 255 := by
  simp [State.passphrase]

theorem length_encrypted_le (s : State) : s.encrypted.length ≤ 64 := by
  simp [State.encrypted]

/-- The state in which the request of the phase in hand, if it sends one, has been answered by the ports of `C`. -/
def served (C : Capabilities) (s : State) : State :=
  match portRequest s with
  | none => s
  | some w =>
    match decodePort w with
    | .error _ => s
    | .ok i =>
      match execWith C i s with
      | .next t => t
      | .fault _ => s
      | .refused _ => s

theorem served_none {C : Capabilities} {s : State} (h : portRequest s = none) : served C s = s := by
  simp [served, h]

theorem served_of {C : Capabilities} {s t : State} {w : PortWord} {i : Instr} (hw : portRequest s = some w)
    (hi : decodePort w = .ok i) (ht : execWith C i s = .next t) : served C s = t := by
  simp [served, hw, hi, ht]

/-- A request of the sequencer decodes, and the port's meaning answers a next state. -/
def Answerable (C : Capabilities) (s : State) : Prop :=
  ∀ w, portRequest s = some w → ∃ i t, decodePort w = .ok i ∧ execWith C i s = .next t

theorem served_eStart {C : Capabilities} {s : State} (h : s.cint.phase = .eStart) : served C s = s :=
  served_none (by simp [portRequest, h])

theorem served_eFlag {C : Capabilities} {s : State} (h : s.cint.phase = .eFlag) : served C s = s :=
  served_none (by simp [portRequest, h])

theorem served_eNorm {C : Capabilities} {s : State} (h : s.cint.phase = .eNorm) :
    served C s = s.answered ⟨0b00110, [s.passphrase]⟩
      (some (normalise C s.passphrase)) :=
  served_of (by simp [portRequest, h]) (decodePort_nfc8 (length_passphrase_le s)) rfl

theorem served_ePub {C : Capabilities} {s : State} (h : s.cint.phase = .ePub) :
    served C s = s.answered ⟨0b01000, [Buf.bytes s.cin.keyIn]⟩
      (C.ecpub s.cin.keyIn) :=
  served_of (by simp [portRequest, h]) (decodePort_ecpub _) rfl

theorem served_eComp_compressed {C : Capabilities} {s : State} (h : s.cint.phase = .eComp) (hc : s.cint.comp = true) :
    served C s = s.answered ⟨0b01010, [s.cint.pub]⟩
      (some (C.eccomp s.cint.pub)) :=
  served_of (by simp [portRequest, h, hc]) (decodePort_eccomp _) rfl

theorem served_eComp_uncompressed {C : Capabilities} {s : State} (h : s.cint.phase = .eComp)
    (hc : s.cint.comp = false) : served C s = s :=
  served_none (by simp [portRequest, h, hc])

theorem served_eAddr {C : Capabilities} {s : State} (h : s.cint.phase = .eAddr) :
    served C s = s.answered ⟨0b01100, [s.cint.pub]⟩
      (some (asciiBytes (C.address s.cint.pub))) :=
  served_of (by simp [portRequest, h]) (decodePort_address _) rfl

theorem served_eSalt {C : Capabilities} {s : State} (h : s.cint.phase = .eSalt) :
    served C s = s.answered ⟨0b00010, [s.cint.addr]⟩
      (some (Buf.bytes (C.sha256d s.cint.addr))) :=
  served_of (by simp [portRequest, h]) (decodePort_sha256d _) rfl

theorem served_eKdf {C : Capabilities} {s : State} (h : s.cint.phase = .eKdf) :
    served C s = s.answered ⟨0b00100, [s.cint.np, Buf.bytes s.cint.salt]⟩
      (some (Buf.bytes (stretch C s.cint.np s.cint.salt))) :=
  served_of (by simp [portRequest, h]) (decodePort_scrypt _ _) rfl

theorem served_eXor1 {C : Capabilities} {s : State} (h : s.cint.phase = .eXor1) : served C s = s :=
  served_none (by simp [portRequest, h])

theorem served_eAes1 {C : Capabilities} {s : State} (h : s.cint.phase = .eAes1) :
    served C s = s.answered ⟨0b00000, [Buf.bytes (derivedHalf2 s.cint.dk), Buf.bytes s.cint.x]⟩
      (some (Buf.bytes (C.aes256Enc (derivedHalf2 s.cint.dk) s.cint.x))) :=
  served_of (by simp [portRequest, h]) (decodePort_aesEnc _ _) rfl

theorem served_eXor2 {C : Capabilities} {s : State} (h : s.cint.phase = .eXor2) : served C s = s :=
  served_none (by simp [portRequest, h])

theorem served_eAes2 {C : Capabilities} {s : State} (h : s.cint.phase = .eAes2) :
    served C s = s.answered ⟨0b00000, [Buf.bytes (derivedHalf2 s.cint.dk), Buf.bytes s.cint.x]⟩
      (some (Buf.bytes (C.aes256Enc (derivedHalf2 s.cint.dk) s.cint.x))) :=
  served_of (by simp [portRequest, h]) (decodePort_aesEnc _ _) rfl

theorem served_eFrame {C : Capabilities} {s : State} (h : s.cint.phase = .eFrame) : served C s = s :=
  served_none (by simp [portRequest, h])

theorem served_eCsum {C : Capabilities} {s : State} (h : s.cint.phase = .eCsum) :
    served C s = s.answered ⟨0b00010, [Buf.bytes (blobBody s.cint.blob)]⟩
      (some (Buf.bytes (C.sha256d (Buf.bytes (blobBody s.cint.blob))))) :=
  served_of (by simp [portRequest, h]) (decodePort_sha256d _) rfl

theorem served_eB58 {C : Capabilities} {s : State} (h : s.cint.phase = .eB58) :
    served C s = s.answered ⟨0b01110, [Buf.bytes s.cint.blob]⟩
      (some (textBytes (C.b58enc s.cint.blob))) :=
  served_of (by simp [portRequest, h]) (decodePort_b58enc _) rfl

theorem served_eDone {C : Capabilities} {s : State} (h : s.cint.phase = .eDone) : served C s = s :=
  served_none (by simp [portRequest, h])

theorem served_dStart {C : Capabilities} {s : State} (h : s.cint.phase = .dStart) : served C s = s :=
  served_none (by simp [portRequest, h])

theorem served_dB58_asked {C : Capabilities} {s : State} (h : s.cint.phase = .dB58) (hl : s.elenTooLong = false) :
    served C s = s.answered ⟨0b10000, [s.encrypted]⟩
      ((base58Decode C s.encrypted).map Buf.bytes) :=
  served_of (by simp [portRequest, h, hl]) (decodePort_b58dec43 (length_encrypted_le s)) rfl

theorem served_dB58_tooLong {C : Capabilities} {s : State} (h : s.cint.phase = .dB58)
    (hl : s.elenTooLong = true) : served C s = s :=
  served_none (by simp [portRequest, h, hl])

theorem served_dCsum {C : Capabilities} {s : State} (h : s.cint.phase = .dCsum) :
    served C s = s.answered ⟨0b00010, [Buf.bytes (blobBody s.cint.blob)]⟩
      (some (Buf.bytes (C.sha256d (Buf.bytes (blobBody s.cint.blob))))) :=
  served_of (by simp [portRequest, h]) (decodePort_sha256d _) rfl

theorem served_dMode {C : Capabilities} {s : State} (h : s.cint.phase = .dMode) : served C s = s :=
  served_none (by simp [portRequest, h])

theorem served_dSplit {C : Capabilities} {s : State} (h : s.cint.phase = .dSplit) : served C s = s :=
  served_none (by simp [portRequest, h])

theorem served_dNorm {C : Capabilities} {s : State} (h : s.cint.phase = .dNorm) :
    served C s = s.answered ⟨0b00110, [s.passphrase]⟩
      (some (normalise C s.passphrase)) :=
  served_of (by simp [portRequest, h]) (decodePort_nfc8 (length_passphrase_le s)) rfl

theorem served_dKdf {C : Capabilities} {s : State} (h : s.cint.phase = .dKdf) :
    served C s = s.answered ⟨0b00100, [s.cint.np, Buf.bytes s.cint.salt]⟩
      (some (Buf.bytes (stretch C s.cint.np s.cint.salt))) :=
  served_of (by simp [portRequest, h]) (decodePort_scrypt _ _) rfl

theorem served_dAes1 {C : Capabilities} {s : State} (h : s.cint.phase = .dAes1) :
    served C s = s.answered ⟨0b00001, [Buf.bytes (derivedHalf2 s.cint.dk), Buf.bytes s.cint.eh1]⟩
      (some (Buf.bytes (C.aes256Dec (derivedHalf2 s.cint.dk) s.cint.eh1))) :=
  served_of (by simp [portRequest, h]) (decodePort_aesDec _ _) rfl

theorem served_dXor1 {C : Capabilities} {s : State} (h : s.cint.phase = .dXor1) : served C s = s :=
  served_none (by simp [portRequest, h])

theorem served_dAes2 {C : Capabilities} {s : State} (h : s.cint.phase = .dAes2) :
    served C s = s.answered ⟨0b00001, [Buf.bytes (derivedHalf2 s.cint.dk), Buf.bytes s.cint.eh2]⟩
      (some (Buf.bytes (C.aes256Dec (derivedHalf2 s.cint.dk) s.cint.eh2))) :=
  served_of (by simp [portRequest, h]) (decodePort_aesDec _ _) rfl

theorem served_dXor2 {C : Capabilities} {s : State} (h : s.cint.phase = .dXor2) : served C s = s :=
  served_none (by simp [portRequest, h])

theorem served_dPub {C : Capabilities} {s : State} (h : s.cint.phase = .dPub) :
    served C s = s.answered ⟨0b01000, [Buf.bytes s.cint.k]⟩
      (C.ecpub s.cint.k) :=
  served_of (by simp [portRequest, h]) (decodePort_ecpub _) rfl

theorem served_dComp_compressed {C : Capabilities} {s : State} (h : s.cint.phase = .dComp) (hc : s.cint.comp = true) :
    served C s = s.answered ⟨0b01010, [s.cint.pub]⟩
      (some (C.eccomp s.cint.pub)) :=
  served_of (by simp [portRequest, h, hc]) (decodePort_eccomp _) rfl

theorem served_dComp_uncompressed {C : Capabilities} {s : State} (h : s.cint.phase = .dComp)
    (hc : s.cint.comp = false) : served C s = s :=
  served_none (by simp [portRequest, h, hc])

theorem served_dAddr {C : Capabilities} {s : State} (h : s.cint.phase = .dAddr) :
    served C s = s.answered ⟨0b01100, [s.cint.pub]⟩
      (some (asciiBytes (C.address s.cint.pub))) :=
  served_of (by simp [portRequest, h]) (decodePort_address _) rfl

theorem served_dVerify {C : Capabilities} {s : State} (h : s.cint.phase = .dVerify) :
    served C s = s.answered ⟨0b00010, [s.cint.addr]⟩
      (some (Buf.bytes (C.sha256d s.cint.addr))) :=
  served_of (by simp [portRequest, h]) (decodePort_sha256d _) rfl

theorem served_dDone {C : Capabilities} {s : State} (h : s.cint.phase = .dDone) : served C s = s :=
  served_none (by simp [portRequest, h])

theorem served_idle {C : Capabilities} {s : State} (h : s.cint.phase = .idle) : served C s = s :=
  served_none (by simp [portRequest, h])

theorem answerable_none {C : Capabilities} {s : State} (h : portRequest s = none) : Answerable C s :=
  fun w hw => by simp [h] at hw

theorem answerable_of {C : Capabilities} {s t : State} {w : PortWord} {i : Instr} (hw : portRequest s = some w)
    (hi : decodePort w = .ok i) (ht : execWith C i s = .next t) : Answerable C s := by
  intro w' hw'
  obtain rfl : w = w' := by simpa [hw] using hw'
  exact ⟨i, t, hi, ht⟩

/-- Every request the sequencer sends is answered (R120). -/
theorem answerable (C : Capabilities) (s : State) : Answerable C s := by
  cases hp : s.cint.phase
  case eNorm | dNorm =>
    exact answerable_of (by simp only [portRequest, hp]) (decodePort_nfc8 (length_passphrase_le s)) rfl
  case ePub | dPub => exact answerable_of (by simp only [portRequest, hp]; rfl) (decodePort_ecpub _) rfl
  case eComp | dComp =>
    cases hc : s.cint.comp
    · exact answerable_none (by simp [portRequest, hp, hc])
    · exact answerable_of (by simp only [portRequest, hp, hc]; rfl) (decodePort_eccomp _) rfl
  case eAddr | dAddr => exact answerable_of (by simp only [portRequest, hp]; rfl) (decodePort_address _) rfl
  case eSalt | dVerify | eCsum | dCsum =>
    exact answerable_of (by simp only [portRequest, hp]; rfl) (decodePort_sha256d _) rfl
  case eKdf | dKdf => exact answerable_of (by simp only [portRequest, hp]; rfl) (decodePort_scrypt _ _) rfl
  case eAes1 | eAes2 => exact answerable_of (by simp only [portRequest, hp]; rfl) (decodePort_aesEnc _ _) rfl
  case dAes1 | dAes2 => exact answerable_of (by simp only [portRequest, hp]; rfl) (decodePort_aesDec _ _) rfl
  case eB58 => exact answerable_of (by simp only [portRequest, hp]; rfl) (decodePort_b58enc _) rfl
  case dB58 =>
    cases hl : s.elenTooLong
    · exact answerable_of (by simp [portRequest, hp, hl]) (decodePort_b58dec43 (length_encrypted_le s)) rfl
    · exact answerable_none (by simp [portRequest, hp, hl])
  all_goals exact answerable_none (by simp [portRequest, hp])

/-- The check of the strap, in the two cases (R255). -/
theorem requireCap_all {cap : BitVec 9} (h : cap = Config.capAll) (s go : State) : requireCap cap s go = go :=
  if_pos h

theorem requireCap_missing {cap : BitVec 9} (h : cap ≠ Config.capAll) (s go : State) :
    requireCap cap s go = s.raise .capabilityUnavailable := if_neg h

/-- `raise` leaves nothing of class INT: what stood there does not matter (R262). -/
theorem raise_congr {s t : State} (ht : t.trace = s.trace) (hh : t.host = s.host) (e : ErrorKind) :
    t.raise e = s.raise e := by
  simp [State.raise, ht, hh]

/-- One turn of the sequencer: the phase performed on the state in which its request has been answered. -/
theorem sequencerTurn_eq (C : Capabilities) (s : State) :
    sequencerTurn C.cap (execWith C) s = .next (finishPhase C.cap (served C s)) := by
  unfold sequencerTurn served
  cases hw : portRequest s with
  | none => rfl
  | some w =>
    obtain ⟨i, t, hi, ht⟩ := answerable C s w hw
    simp [runWord, decode, hi, ht]

/-- With nothing on the agenda a step is a turn of the sequencer. -/
theorem stepWith_sequencer {C : Capabilities} {s : State} (h : s.host.agenda = []) :
    stepWith C s = .next (finishPhase C.cap (served C s)) := by
  simp [stepWith, stepUsing, h, sequencerTurn_eq]

/-- The agenda gives the sequencer its turn. -/
theorem stepWith_turn {C : Capabilities} {s : State} {rest : List HostEvent} (h : s.host.agenda = .turn :: rest) :
    stepWith C s = .next (finishPhase C.cap (served C (s.withAgenda rest))) := by
  simp [stepWith, stepUsing, h, sequencerTurn_eq]

/-- The agenda holds a host access. -/
theorem stepWith_access {C : Capabilities} {s : State} {w : BitVec 18} {rest : List HostEvent}
    (h : s.host.agenda = .access w :: rest) :
    stepWith C s = execWith C (decodeAccess w) (s.withAgenda rest) := by
  simp [stepWith, stepUsing, h, runWord, decode]

/-- The agenda holds a reset. -/
theorem stepWith_reset {C : Capabilities} {s : State} {rest : List HostEvent} (h : s.host.agenda = .reset :: rest) :
    stepWith C s = .next (s.withAgenda rest).toReset := by
  simp [stepWith, stepUsing, h]

end Sys2Proof.Machine
end

