-- ==== Sys2Proof/Tests/Slice0.lean ====
section
/-! SUPPORT. The model's own tests: ill-formed terms refused, words decoded, the spec's vectors
(spec/95_test_vectors.md), one step each of the instructions, and for every statement with hypotheses a witness that
meets them. -/

set_option maxRecDepth 20000

namespace Sys2Proof.Tests

open Sys2Proof Sys2Proof.Machine

/-! ### Well-formedness: one ill-formed term for each check -/

theorem test_wf_refuses_illegal04_outside_its_row : (Instr.illegal04 0x08).wf = false := by decide
theorem test_wf_refuses_illegal08_outside_its_row : (Instr.illegal08 0x10).wf = false := by decide
theorem test_wf_refuses_illegal10_outside_its_row : (Instr.illegal10 0x0F).wf = false := by decide
theorem test_wf_refuses_illegal20_outside_its_row : (Instr.illegal20 0x40).wf = false := by decide
theorem test_wf_refuses_illegal40_outside_its_row : (Instr.illegal40 0x3F).wf = false := by decide
theorem test_wf_refuses_illegal80_outside_its_row : (Instr.illegal80 0x7F).wf = false := by decide
theorem test_wf_refuses_256_byte_passphrase : (Instr.nfc8 (List.replicate 256 0)).wf = false := by decide
theorem test_wf_refuses_65_character_string : (Instr.b58dec43 (List.replicate 65 0)).wf = false := by decide

/-! ### Decoding: words written out from the encodings of 30_encoding R90, R101 and the packing of HOSTACC -/

theorem test_decode_commands :
    decode (.cmd8 0b00000001) = .ok .enc ∧ decode (.cmd8 0b00000010) = .ok .dec ∧
      decode (.cmd8 0b00000011) = .ok .clr := by decide

/-- The first and the last byte of each ILLEGAL row. -/
theorem test_decode_illegal :
    decode (.cmd8 0b00000000) = .ok .illegal00 ∧
      decode (.cmd8 0b00000100) = .ok (.illegal04 4) ∧ decode (.cmd8 0b00000111) = .ok (.illegal04 7) ∧
      decode (.cmd8 0b00001000) = .ok (.illegal08 8) ∧ decode (.cmd8 0b00001111) = .ok (.illegal08 15) ∧
      decode (.cmd8 0b00010000) = .ok (.illegal10 16) ∧ decode (.cmd8 0b00011111) = .ok (.illegal10 31) ∧
      decode (.cmd8 0b00100000) = .ok (.illegal20 32) ∧ decode (.cmd8 0b00111111) = .ok (.illegal20 63) ∧
      decode (.cmd8 0b01000000) = .ok (.illegal40 64) ∧ decode (.cmd8 0b01111111) = .ok (.illegal40 127) ∧
      decode (.cmd8 0b10000000) = .ok (.illegal80 128) ∧ decode (.cmd8 0b11111111) = .ok (.illegal80 255) := by
  decide

theorem test_decode_aes :
    decode (.portsel ⟨0b00000, [List.replicate 32 7, List.replicate 16 9]⟩) =
        .ok (.aesEnc (Vector.replicate 32 7) (Vector.replicate 16 9)) ∧
      decode (.portsel ⟨0b00001, [List.replicate 32 7, List.replicate 16 9]⟩) =
        .ok (.aesDec (Vector.replicate 32 7) (Vector.replicate 16 9)) := by decide

theorem test_decode_hash_and_kdf :
    decode (.portsel ⟨0b00010, [[1, 2]]⟩) = .ok (.sha256d [1, 2]) ∧
      decode (.portsel ⟨0b00100, [[1, 2], [3, 4, 5, 6]]⟩) = .ok (.scrypt [1, 2] (Vector.ofFn fun i => 3 + i.val)) := by
  decide

theorem test_decode_collaborators :
    decode (.portsel ⟨0b00110, [[1]]⟩) = .ok (.nfc8 [1]) ∧
      decode (.portsel ⟨0b01000, [List.replicate 32 7]⟩) = .ok (.ecpub (Vector.replicate 32 7)) ∧
      decode (.portsel ⟨0b01010, [[1]]⟩) = .ok (.eccomp [1]) ∧
      decode (.portsel ⟨0b01100, [[1]]⟩) = .ok (.address [1]) ∧
      decode (.portsel ⟨0b01110, [List.replicate 43 7]⟩) = .ok (.b58enc (Vector.replicate 43 7)) ∧
      decode (.portsel ⟨0b10000, [[1]]⟩) = .ok (.b58dec43 [1]) := by decide

/-- Bit 17 is the direction, bits 16:8 the address, bits 7:0 the data byte; a read ignores the data byte. -/
theorem test_decode_accesses :
    decode (.hostacc 0b1_000100000_11001011) = .ok (.wr 0x020 0xCB) ∧
      decode (.hostacc 0b1_111111111_00000001) = .ok (.wr 0x1FF 0x01) ∧
      decode (.hostacc 0b0_000000001_00000000) = .ok (.rd 0x001) ∧
      decode (.hostacc 0b0_100000000_11111111) = .ok (.rd 0x100) := by decide

theorem test_decode_refuses_reserved_selector :
    decode (.portsel ⟨0b00011, [[]]⟩) = .error (.reservedSelector 0b00011) := by decide

theorem test_decode_refuses_wrong_fields :
    decode (.portsel ⟨0b00000, [List.replicate 31 0, List.replicate 16 0]⟩) = .error (.badFields 0b00000) ∧
      decode (.portsel ⟨0b00110, [List.replicate 256 0]⟩) = .error (.badFields 0b00110) := by decide

theorem test_table_words :
    decodeTableWord 8 0x02 = some .dec ∧ decodeTableWord 5 0b00010 = some (.sha256d []) ∧
      decodeTableWord 5 0b00011 = none ∧ decodeTableWord 18 0x220CB = some (.wr 0x020 0xCB) ∧
      decodeTableWord 24 0x00100 = some (.rd 0x001) := by decide

/-! ### The coordinator's own operators (vectors X1 to X4, F1 to F6) -/

/-- The `n` bytes of a number, most significant first. -/
def hex (n k : Nat) : Bytes := (List.range n).map fun i => BitVec.ofNat 8 (k / 256 ^ (n - 1 - i))

/-- The `n`-byte buffer of a number. -/
def buf (n k : Nat) : Buf n := Buf.ofBytes n (hex n k)

/-- The ASCII bytes of a text. -/
def ascii (s : String) : Bytes := s.toList.map fun c => BitVec.ofNat 8 c.toNat

/-- X1, X2 and X4: masking, unmasking, and no carry. -/
theorem test_xor16 :
    xor16 (buf 16 0xcbf4b9f70470856bb4f40f80b87edb90) (buf 16 0xf87648a6b42fdd86ef6837a249cde153) =
        buf 16 0x3382f151b05f58ed5b9c3822f1b33ac3 ∧
      xor16 (buf 16 0x3382f151b05f58ed5b9c3822f1b33ac3) (buf 16 0xf87648a6b42fdd86ef6837a249cde153) =
        buf 16 0xcbf4b9f70470856bb4f40f80b87edb90 ∧
      xor16 (buf 16 0x80000000000000000000000000000001) (buf 16 1) =
        buf 16 0x80000000000000000000000000000000 := by decide

/-- F1: byte i of DK is i. -/
theorem test_split64 :
    derivedHalf2 (Vector.ofFn fun i => BitVec.ofNat 8 i.val) = Vector.ofFn (fun i => BitVec.ofNat 8 (32 + i.val)) ∧
      maskFirst (Vector.ofFn fun i => BitVec.ofNat 8 i.val) = Vector.ofFn (fun i => BitVec.ofNat 8 i.val) ∧
      maskSecond (Vector.ofFn fun i => BitVec.ofNat 8 i.val) = Vector.ofFn (fun i => BitVec.ofNat 8 (16 + i.val)) := by
  decide

/-- F3. -/
theorem test_frame39 :
    Buf.bytes (frame39 0xE0 (Buf.zero 4) (Vector.replicate 16 0x11) (Vector.replicate 16 0x22)) =
      hex 7 0x0142e000000000 ++ List.replicate 16 0x11 ++ List.replicate 16 0x22 := by decide

/-- F5: the fields of V1's BLOB. -/
theorem test_deframe43 :
    deframe43 (buf 43 0x0142c0e957a24ad357fafb81c71f8375a9a4d0ac02bad5f6c87c4b459fabe34c0c314b33708ec33c415dd5) =
      { v0 := 0x01, v1 := 0x42, flag := 0xC0, addresshash := buf 4 0xe957a24a
        eh1 := buf 16 0xd357fafb81c71f8375a9a4d0ac02bad5, eh2 := buf 16 0xf6c87c4b459fabe34c0c314b33708ec3
        csum := buf 4 0x3c415dd5 } := by decide

/-- F6: all four bytes are compared. -/
theorem test_comparator :
    eqBytes (buf 4 0xe957a24a) (buf 4 0xe957a24a) = true ∧ eqBytes (buf 4 0xe957a24a) (buf 4 0xe957a24b) = false ∧
      eqBytes (buf 4 0xe957a24a) (buf 4 0xe857a24a) = false := by decide

/-! ### ENC and DEC on ports that answer what the standard functions answer (vectors V1, V4, V7, V8, V9, V13) -/

/-- The intermediate values of one vector of spec/95_test_vectors.md. -/
structure Example where
  pub : Bytes
  encoded : Bytes
  addr : Bytes
  addrDigest : Buf 32
  dk : Buf 64
  x1 : Buf 16
  eh1 : Buf 16
  x2 : Buf 16
  eh2 : Buf 16
  bodyDigest : Buf 32
  blob : Buf 43
  str : Bytes

/-- The private key of V1 and V4. -/
def key : Buf 32 := buf 32 0xcbf4b9f70470856bb4f40f80b87edb90865997ffee6df315ab166d713af433a5

/-- The passphrase of V1 and V4. -/
def pass : Bytes := ascii "TestingOneTwoThree"

/-- The 65-byte public key of V1 and V4. -/
def pub65 : Bytes :=
  hex 65 0x04d2ce831dd06e5c1f5b1121ef34c2af4bcb01b126e309234adbc3561b60c9360ea7f23327b49ba7f10d17fad15f068b8807dbbc9e4ace5d4a0b40264eefaf31a4

/-- V1: the flag is 0 and the public key stays uncompressed. -/
def v1 : Example where
  pub := pub65
  encoded := pub65
  addr := ascii "1Jq6MksXQVWzrznvZzxkV6oY57oWXD9TXB"
  addrDigest := buf 32 0xe957a24a1d8a976c4d2d2331518186d2833ccf5010dada9c853952f9559569ba
  dk := buf 64 0xf87648a6b42fdd86ef6837a249cde15318f264d43a859b610e78ea63d51cb2d3e60bf44bfb29d543bba24afcccfadbfc6ef9312fcccf589fa5ea1366ec21e4c0
  x1 := buf 16 0x3382f151b05f58ed5b9c3822f1b33ac3
  eh1 := buf 16 0xd357fafb81c71f8375a9a4d0ac02bad5
  x2 := buf 16 0x9eabf32bd4e86874a56e8712efe88176
  eh2 := buf 16 0xf6c87c4b459fabe34c0c314b33708ec3
  bodyDigest := buf 32 0x3c415dd5572691211595f80b59d8465021097a8c6392b76b1f111c366fdc4061
  blob := buf 43 0x0142c0e957a24ad357fafb81c71f8375a9a4d0ac02bad5f6c87c4b459fabe34c0c314b33708ec33c415dd5
  str := ascii "6PRVWUbkzzsbcVac2qwfssoUJAN1Xhrg6bNk8J7Nzm5H7kxEbn2Nh2ZoGg"

/-- V4: the same key with the flag 1. Of the two digests the vector gives the four bytes that are used. -/
def v4 : Example where
  pub := pub65
  encoded := hex 33 0x02d2ce831dd06e5c1f5b1121ef34c2af4bcb01b126e309234adbc3561b60c9360e
  addr := ascii "164MQi977u9GUteHr4EPH27VkkdxmfCvGW"
  addrDigest := Buf.splice (Buf.zero 32) 0 (buf 4 0x43be4179)
  dk := buf 64 0x731ef3c737b55df4998b44fa8a547a3f38df424da240de389b11d1875ba477672f2fe81b0532b5950e3ea6fff92c65d467aa7d054969821de2344f7a86d42569
  x1 := buf 16 0xb8ea4a3033c5d89f2d7f4b7a322aa1af
  eh1 := buf 16 0x70e4a0805f15a77efc738f794068d883
  x2 := buf 16 0xbe86d5b24c2d2d2d3007bcf6615044c2
  eh2 := buf 16 0x7c2985a6945f7fe0db3f75dc305eaf7c
  bodyDigest := Buf.splice (Buf.zero 32) 0 (buf 4 0xbb61ce24)
  blob := buf 43 0x0142e043be417970e4a0805f15a77efc738f794068d8837c2985a6945f7fe0db3f75dc305eaf7cbb61ce24
  str := ascii "6PYNKZ1EAgYgmQfmNVamxyXVWHzK5s6DGhwP4J5o44cvXdoY7sRzhtpUeo"

/-- Ports that answer the vector's values to the vector's requests, and zeros (Invalid, Reject) to any other. -/
def ports (e : Example) : Capabilities where
  cap := 0x1FF
  aes256Enc k b :=
    if k = derivedHalf2 e.dk ∧ b = e.x1 then e.eh1 else if k = derivedHalf2 e.dk ∧ b = e.x2 then e.eh2 else Buf.zero 16
  aes256Dec k b :=
    if k = derivedHalf2 e.dk ∧ b = e.eh1 then e.x1 else if k = derivedHalf2 e.dk ∧ b = e.eh2 then e.x2 else Buf.zero 16
  sha256d m := if m = e.addr then e.addrDigest else if m = Buf.bytes (blobBody e.blob) then e.bodyDigest else Buf.zero 32
  scrypt n r p pw s := if n = 16384 ∧ r = 8 ∧ p = 8 ∧ pw = pass ∧ s = Buf.first4 e.addrDigest then e.dk else Buf.zero 64
  nfc8 t := t
  ecpub k := if k = key then some e.pub else none
  eccomp _ := e.encoded
  address p := if p = e.encoded then e.addr.map (BitVec.setWidth 7) else []
  b58enc b := if b = e.blob then ⟨57, Vector.ofFn fun i => (e.str.getD i 0).setWidth 7⟩ else ⟨0, Vector.replicate 64 0⟩
  b58dec43 s := if s = e.str then some e.blob else none

/-- ENC answered this string. -/
def encGives (r : Except ErrorKind Bytes) (str : Bytes) : Bool :=
  match r with
  | .ok t => t == str
  | .error _ => false

/-- ENC failed in this way. -/
def encFails (r : Except ErrorKind Bytes) (e : ErrorKind) : Bool :=
  match r with
  | .ok _ => false
  | .error e' => e == e'

/-- DEC answered this key and flag. -/
def decGives (r : Except ErrorKind (Buf 32 × Bool)) (k : Buf 32) (comp : Bool) : Bool :=
  match r with
  | .ok (k', c) => k' == k && c == comp
  | .error _ => false

/-- DEC failed in this way. -/
def decFails (r : Except ErrorKind (Buf 32 × Bool)) (e : ErrorKind) : Bool :=
  match r with
  | .ok _ => false
  | .error e' => e == e'

theorem test_v1_encrypts : encGives (encFunction (ports v1) key false pass) v1.str = true := by decide
theorem test_v4_encrypts_compressed : encGives (encFunction (ports v4) key true pass) v4.str = true := by decide
theorem test_v13_zero_key_is_invalid :
    encFails (encFunction (ports v1) (Buf.zero 32) false pass) .invalidKeyFormat = true := by decide
theorem test_v7_decrypts : decGives (decFunction (ports v1) 58 v1.str pass) key false = true := by decide
theorem test_v15_decrypts_compressed : decGives (decFunction (ports v4) 58 v4.str pass) key true = true := by decide
theorem test_v8_wrong_passphrase :
    decFails (decFunction (ports v1) 58 v1.str (ascii "Satoshi")) .wrongPassphrase = true := by decide
/-- V10(a) and V10(d). -/
theorem test_v10_lengths :
    decFails (decFunction (ports v1) 0 [] pass) .malformedCiphertext = true ∧
      decFails (decFunction (ports v1) 65 v1.str pass) .malformedCiphertext = true := by decide
/-- V9, V11(a) and V12(d): the last byte of the checksum, the flag byte and the second version byte changed. The ports
are given the checksum the vector gives. -/
theorem test_v9_v11_v12_bad_blobs :
    decFails (decBlob (ports v1) (Buf.put v1.blob 42 0xd6) pass) .malformedCiphertext = true ∧
      decFails (decBlob { ports v1 with sha256d := fun _ => Buf.splice (Buf.zero 32) 0 (buf 4 0xc839640e) }
        (Buf.splice (Buf.put v1.blob 2 0x00) 39 (buf 4 0xc839640e)) pass) .unsupportedMode = true ∧
      decFails (decBlob { ports v1 with sha256d := fun _ => Buf.splice (Buf.zero 32) 0 (buf 4 0xcdb0c0c1) }
        (Buf.splice (Buf.put (Buf.put v1.blob 1 0x43) 2 0x00) 39 (buf 4 0xcdb0c0c1)) pass) .unsupportedMode = true := by
  decide

/-! ### One step -/

/-- `P` of the next state. -/
def after (o : Outcome) (P : State → Bool) : Bool :=
  match o with
  | .next s => P s
  | .fault _ => false
  | .refused _ => false

/-- The block is running ENC, in this phase. -/
def running (p : Phase) : State :=
  { State.reset with status := 0x01, cint := { ClassInt.zero with phase := p, op := p.op } }

/-- After a completed ENC: a result, operands gone. -/
def holding : State :=
  { State.reset with
    status := 0x02
    cout := { ClassOut.zero with estrOut := Buf.splice (Buf.zero 64) 0 (buf 2 0x3650), outElen := 58 } }

theorem test_enc_starts :
    after (step (holding.withFetchWord 8 0x01)) (fun s =>
      s.status == 0x01 && s.cint.phase.code == 0x10 && s.cint.op.code == 1 && s.cout == ClassOut.zero) = true := by
  decide

theorem test_dec_starts :
    after (step (holding.withFetchWord 8 0x02)) (fun s =>
      s.status == 0x01 && s.cint.phase.code == 0x20 && s.cint.op.code == 2 && s.cout == ClassOut.zero) = true := by
  decide

/-- V16. -/
theorem test_clr_leaves_reset_state : exec .clr holding = .next State.reset := rfl

/-- R64: a command byte while BUSY = 1. -/
theorem test_clr_dropped_while_busy : exec .clr (running .eKdf) = .next (running .eKdf) := rfl

/-- V17. -/
theorem test_illegal_clears_operands :
    after (exec (.illegal40 0x7F) { State.reset with cin := ClassIn.zero.write 0x020 0xAA }) (fun s =>
      s.status == 0x06 && s.errcode == 0x06 && Buf.get s.cin.keyIn 0 == 0x00) = true := by decide

/-- V18, and one byte of each other ILLEGAL row. -/
theorem test_illegal_rows :
    (([.illegal00, .illegal04 4, .illegal08 8, .illegal10 16, .illegal20 32, .illegal80 128] : List Instr).all fun i =>
      after (exec i State.reset) fun s => s.status == 0x06 && s.errcode == 0x06 && s.cint.phase == .idle) = true := by
  decide

/-- V21: only bit 0 of CTRL is kept. -/
theorem test_wr_ctrl_keeps_one_bit :
    after (exec (.wr 0x003 0xFF) State.reset) (fun s => s.memRead 0x1FF 0x003 == 0x01) = true := by decide

/-- V19: read-only and reserved locations ignore writes. -/
theorem test_wr_elsewhere_ignored :
    exec (.wr 0x001 0xFF) State.reset = .next State.reset ∧ exec (.wr 0x040 0xFF) State.reset = .next State.reset ∧
      exec (.wr 0x008 0x00) State.reset = .next State.reset ∧ exec (.wr 0x1FF 0xFF) State.reset = .next State.reset :=
  ⟨rfl, rfl, rfl, rfl⟩

/-- V24: what the host reads after V1. -/
theorem test_rd_after_encryption :
    ([0x001, 0x020, 0x004, 0x100, 0x0C0, 0x007, 0x000].map fun a => holding.memRead 0x1FF a) =
      [0x02, 0x00, 0x00, 0x00, 0x36, 0x3A, 0x00] := by decide

/-- V23: while a command runs every read but STATUS returns 0x00. V20: CAP = 0x1FB reads 0xFB and 0x01. -/
theorem test_rd_masked_and_strap :
    ([0x001, 0x020, 0x009].map fun a => (running .eKdf).memRead 0x1FF a) = [0x01, 0x00, 0x00] ∧
      State.reset.memRead 0x1FB 0x008 = 0xFB ∧ State.reset.memRead 0x1FB 0x009 = 0x01 := by decide

theorem test_aesEnc_answers :
    after (execAesEnc (derivedHalf2 v1.dk) v1.x1 State.reset (ports v1)) (fun s =>
      s.cint.resp == some (Buf.bytes v1.eh1) && s.selectors == [0b00000]) = true := by decide
theorem test_aesDec_answers :
    after (execAesDec (derivedHalf2 v1.dk) v1.eh1 State.reset (ports v1)) (fun s =>
      s.cint.resp == some (Buf.bytes v1.x1) && s.selectors == [0b00001]) = true := by decide
theorem test_sha256d_answers :
    after (execSha256d v1.addr State.reset (ports v1)) (fun s =>
      s.cint.resp == some (Buf.bytes v1.addrDigest) && s.selectors == [0b00010]) = true := by decide
theorem test_scrypt_answers :
    after (execScrypt pass (buf 4 0xe957a24a) State.reset (ports v1)) (fun s =>
      s.cint.resp == some (Buf.bytes v1.dk) && s.selectors == [0b00100]) = true := by decide
theorem test_nfc8_answers :
    after (execNfc8 pass State.reset (ports v1)) (fun s =>
      s.cint.resp == some pass && s.selectors == [0b00110]) = true := by decide
/-- R163: "PLEN = 0 gives the empty NP", whatever the port does with other texts. -/
theorem test_nfc8_empty :
    after (execNfc8 [] State.reset { ports v1 with nfc8 := fun _ => [0x61] }) (fun s => s.cint.resp == some []) = true := by
  decide
theorem test_ecpub_answers :
    after (execEcpub key State.reset (ports v1)) (fun s =>
      s.cint.resp == some pub65 && s.selectors == [0b01000]) = true := by decide
theorem test_ecpub_invalid :
    after (execEcpub (Buf.zero 32) State.reset (ports v1)) (fun s => s.cint.resp == none && s.status == 0x00) = true := by
  decide
theorem test_eccomp_answers :
    after (execEccomp pub65 State.reset (ports v4)) (fun s =>
      s.cint.resp == some v4.encoded && s.selectors == [0b01010]) = true := by decide
theorem test_address_answers :
    after (execAddress pub65 State.reset (ports v1)) (fun s =>
      s.cint.resp == some v1.addr && s.selectors == [0b01100]) = true := by decide
theorem test_b58enc_answers :
    after (execB58enc v1.blob State.reset (ports v1)) (fun s =>
      s.cint.resp == some v1.str && s.selectors == [0b01110]) = true := by decide
theorem test_b58dec43_answers :
    after (execB58dec43 v1.str State.reset (ports v1)) (fun s =>
      s.cint.resp == some (Buf.bytes v1.blob) && s.selectors == [0b10000]) = true := by decide
theorem test_b58dec43_rejects_empty :
    after (execB58dec43 [] State.reset (ports v1)) (fun s => s.cint.resp == none && s.status == 0x00) = true := by decide

/-- V20: ENC with the SCRYPT port missing ends in E_START, with no request. -/
theorem test_missing_port :
    after (stepWith { ports v1 with cap := 0x1FB } (running .eStart)) (fun s =>
      s.status == 0x06 && s.errcode == 0x05 && s.trace == []) = true := by decide

/-- V26: reset while the SCRYPT phase is next. -/
theorem test_reset_during_command :
    step ((running .eKdf).expecting .reset) = .next State.reset := rfl

/-! ### Ports that keep the contracts R124 and R137 -/

/-- Bit 7 of byte `i` of a blob. -/
def topBit (blob : Buf 43) (i : Nat) : Bool := (Buf.get blob i).getLsbD 7

/-- The text of a blob: 43 characters with the low seven bits of each byte, then the top bits, three to a character. -/
def packChar (blob : Buf 43) (i : Nat) : Ascii :=
  if i < 43 then (Buf.get blob i).setWidth 7
  else
    (if topBit blob (3 * (i - 43)) then 1 else 0) ||| (if topBit blob (3 * (i - 43) + 1) then 2 else 0) |||
      (if topBit blob (3 * (i - 43) + 2) then 4 else 0)

/-- Byte `i` of the blob of a text. -/
def unpackByte (str : Bytes) (i : Nat) : Byte :=
  (str.getD i 0 &&& 0x7F) ||| (if (str.getD (43 + i / 3) 0).getLsbD (i % 3) then 0x80 else 0)

/-- Ports that encrypt nothing, accept every key and hash to zero, with a base-58 pair that keeps R137. -/
def toy : Capabilities where
  cap := 0x1FF
  aes256Enc _ b := b
  aes256Dec _ b := b
  sha256d _ := Buf.zero 32
  scrypt _ _ _ _ _ := Buf.zero 64
  nfc8 t := if t = hex 3 0xe284ab then hex 2 0xc385 else t
  ecpub _ := some []
  eccomp p := p
  address _ := []
  b58enc blob := ⟨63, Vector.ofFn fun i => packChar blob i.val⟩
  b58dec43 str := if str.length = 64 then some (Vector.ofFn fun i => unpackByte str i.val) else none

theorem packText_getD (blob : Buf 43) {i : Nat} (h : i < 64) :
    (textBytes (toy.b58enc blob)).getD i 0 = (packChar blob i).setWidth 8 := by
  simp [textBytes, toy, Ascii.byte, List.getD, h]

theorem unpack_low : ∀ b : Byte,
    (BitVec.setWidth 8 (BitVec.setWidth 7 b) &&& 0x7F) ||| (if b.getLsbD 7 then 0x80 else 0) = b := by decide

theorem unpack_top : ∀ (a b c : Bool),
    let v : Ascii := (if a then 1 else 0) ||| (if b then 2 else 0) ||| (if c then 4 else 0)
    (v.setWidth 8).getLsbD 0 = a ∧ (v.setWidth 8).getLsbD 1 = b ∧ (v.setWidth 8).getLsbD 2 = c := by decide

theorem unpackByte_pack (blob : Buf 43) {i : Nat} (h : i < 43) :
    unpackByte (textBytes (toy.b58enc blob)) i = Buf.get blob i := by
  have hj : 43 + i / 3 < 64 := by omega
  have hn : ¬ 43 + i / 3 < 43 := by omega
  have top : (BitVec.setWidth 8 (packChar blob (43 + i / 3))).getLsbD (i % 3) = topBit blob i := by
    have key := unpack_top (topBit blob (3 * (i / 3))) (topBit blob (3 * (i / 3) + 1)) (topBit blob (3 * (i / 3) + 2))
    rw [packChar, if_neg hn, Nat.add_sub_cancel_left]
    have h3 : i % 3 = 0 ∨ i % 3 = 1 ∨ i % 3 = 2 := by omega
    rcases h3 with e | e | e
    · rw [e]; exact key.1.trans (congrArg _ (by omega))
    · rw [e]; exact key.2.1.trans (congrArg _ (by omega))
    · rw [e]; exact key.2.2.trans (congrArg _ (by omega))
  rw [unpackByte, packText_getD blob (by omega), packText_getD blob hj, top, packChar, if_pos h]
  exact unpack_low _

theorem toy_keeps_aes_contract : aesContract toy := ⟨fun _ _ => rfl, fun _ _ => rfl⟩

theorem toy_keeps_nfc_contracts : pNfcIdem toy ∧ pNfcEmpty toy ∧ pNfcAscii toy := by
  refine ⟨fun text => ?_, rfl, fun text h => ?_⟩
  · by_cases h0 : text = []
    · simp [h0, normalise]
    · by_cases h1 : text = hex 3 0xe284ab
      · subst h1; decide
      · have e : normalise toy text = text := by simp [normalise, toy, h0, h1]
        rw [e, e]
  · by_cases h0 : text = []
    · simp [h0, normalise]
    · have h1 : text ≠ hex 3 0xe284ab := by
        rintro rfl
        exact absurd (h 0xe2 (by decide)) (by decide)
      simp [normalise, toy, h0, h1]

theorem length_pack (blob : Buf 43) : (textBytes (toy.b58enc blob)).length = 64 := by simp [textBytes, toy]

theorem toy_decode {str : Bytes} (h : str.length = 64) :
    base58Decode toy str = some (Vector.ofFn fun i => unpackByte str i.val) := by
  have hne : str ≠ [] := by
    rintro rfl
    simp at h
  simp only [base58Decode, toy, hne, h, if_true, if_false]

theorem toy_keeps_base58_contract : base58Contract toy := by
  intro blob _
  rw [toy_decode (length_pack blob)]
  refine congrArg some (Buf.ext_get fun i hi => ?_)
  rw [Buf.get_eq_getElem _ hi, Vector.getElem_ofFn, unpackByte_pack blob hi]

/-! ### Witnesses: for every statement with hypotheses, a state and operands that meet them all -/

/-- The host is about to write `v` to CMD, with these operands and these results of an earlier command. -/
def commanding (v : Byte) (c : ClassIn) (o : ClassOut) : State :=
  { State.reset with cin := c, cout := o, host := { agenda := [.access (accessWord 1 0x000 v)], reads := [0x5A] } }

/-- The operands of ENC: the key of V1, flag 1, passphrase U+212B. -/
def encOperands : ClassIn :=
  { ClassIn.zero with ctrl := 0x01, plen := 3, keyIn := key, pass := Buf.ofBytes 255 (hex 3 0xe284ab) }

/-- A passphrase of two bytes with the same NFC8 image (R217), and nothing else. -/
def otherPass : ClassIn := { ClassIn.zero with plen := 2, pass := Buf.ofBytes 255 (hex 2 0xc385) }

/-- A BLOB that `toy` accepts: version bytes, flag 0xC0, and zeros. -/
def toyBlob : Buf 43 := Buf.splice (Buf.zero 43) 0 (buf 3 0x0142C0)

/-- The operands of DEC: the text of that BLOB, all 64 characters of it, and the empty passphrase. -/
def decOperands : ClassIn :=
  { ClassIn.zero with elenIn := 64, estrIn := Buf.ofBytes 64 (textBytes (toy.b58enc toyBlob)) }

theorem about (v : Byte) (c : ClassIn) (o : ClassOut) : aboutToCommand (commanding v c o) v :=
  ⟨show State.reset.busy = false by decide, rfl⟩

theorem decGives_iff {r : Except ErrorKind (Buf 32 × Bool)} {k : Buf 32} {c : Bool} (h : decGives r k c = true) :
    r = .ok (k, c) := by
  cases r with
  | error _ => simp [decGives] at h
  | ok p => simpa [decGives, Prod.ext_iff] using h

/-- The longest operands and the ends of the rows. -/
theorem witness_DecodeEncodeRoundTrip :
    (Instr.nfc8 (List.replicate 255 0)).wf = true ∧ (Instr.b58dec43 (List.replicate 64 0)).wf = true ∧
      (Instr.illegal04 0x07).wf = true ∧ (Instr.illegal08 0x08).wf = true ∧ (Instr.illegal10 0x1F).wf = true ∧
      (Instr.illegal20 0x20).wf = true ∧ (Instr.illegal40 0x7F).wf = true ∧ (Instr.illegal80 0xFF).wf = true := by
  decide

theorem witness_ReservedSelectorsRefused :
    ∀ sel ∈ [0b00011, 0b10001, (0b11111 : Selector)],
      sel ∉ [0b00000, 0b00001, 0b00010, 0b00100, 0b00110, 0b01000, 0b01010, 0b01100, 0b01110, (0b10000 : Selector)] := by
  decide

/-- For EncStartsSequencer, DecStartsSequencer, ClrRestoresReset and IllegalCommandsComplete. -/
theorem witness_commands : holding.busy = false ∧ State.reset.busy = false := by decide

/-- For CommandsIgnoredWhileBusy, WriteIgnoredWhileBusy and ReadMaskedWhileBusy. -/
theorem witness_busy : (running .eKdf).busy = true := by decide

/-- The first and last address of every class-IN range. -/
theorem witness_WriteStoresClassInByte :
    holding.busy = false ∧
      ([0x003, 0x004, 0x005, 0x020, 0x03F, 0x080, 0x0BF, 0x100, 0x1FE] : List Addr).all isClassIn = true := by decide

/-- The first and last address of every other range. -/
theorem witness_WriteElsewhereIgnored :
    holding.busy = false ∧
      ∀ a ∈ ([0x001, 0x002, 0x006, 0x009, 0x00A, 0x01F, 0x040, 0x05F, 0x060, 0x07F, 0x0C0, 0x0FF, 0x1FF] : List Addr),
        a ≠ 0x000 ∧ isClassIn a = false := by decide

/-- The ends of the two reserved ranges. -/
theorem witness_ReadReturnsMappedByte :
    holding.busy = false ∧ (∀ n ∈ [0x00A, 0x01F], 0x00A ≤ n ∧ n ≤ 0x01F) ∧
      (∀ n ∈ [0x060, 0x07F], 0x060 ≤ n ∧ n ≤ 0x07F) := by decide

theorem witness_PortsAndReadsKeepHostView :
    (portAnswer Config.attached (.sha256d []) ≠ none ∧ ∃ t, exec (.sha256d []) holding = .next t) ∧
      (∃ a, Instr.rd 0x0C0 = .rd a) ∧ ∃ t, exec (.rd 0x0C0) holding = .next t :=
  ⟨⟨by simp [portAnswer], _, rfl⟩, ⟨_, rfl⟩, _, rfl⟩

theorem witness_StepRunsDecodedInstruction :
    ((commanding 0x01 encOperands ClassOut.zero).host.agenda = .access (accessWord 1 0x000 0x01) :: [] ∧
        decode (.hostacc (accessWord 1 0x000 0x01)) = .ok (.wr 0x000 0x01)) ∧
      ((running .ePub).host.agenda = [] ∧
        portRequest (running .ePub) = some ⟨0b01000, [Buf.bytes (Buf.zero 32)]⟩ ∧
        decode (.portsel ⟨0b01000, [Buf.bytes (Buf.zero 32)]⟩) = .ok (.ecpub (Buf.zero 32)) ∧
        ∃ t, exec (.ecpub (Buf.zero 32)) (running .ePub) = .next t) ∧
      ((running .eFlag).host.agenda = [] ∧ portRequest (running .eFlag) = none) ∧
      ((running .eKdf).expecting .turn).host.agenda = .turn :: [] :=
  ⟨⟨rfl, rfl⟩, ⟨rfl, rfl, by decide, _, rfl⟩, ⟨rfl, rfl⟩, rfl⟩

theorem witness_ResetEventClearsBlock : ((running .eKdf).expecting .reset).host.agenda = .reset :: [] := rfl

/-- Every phase can be next with nothing on the agenda. -/
theorem witness_phases (p : Phase) : (running p).host.agenda = [] ∧ (running p).cint.phase = p := ⟨rfl, rfl⟩

theorem witness_PhaseMovesAlongTable :
    (running .eStart).host.agenda = [] ∧ (running .eStart).cint.phase ≠ .idle ∧
      ∃ t, stepWith toy (running .eStart) = .next t := ⟨rfl, by decide, _, rfl⟩

theorem witness_CommandEndsWithinSixteen : (running .eStart).host.agenda = [] := rfl

/-- A phase that keeps class OUT, the one of a DEC with no string, which ends with an error, and IDLE with a result. -/
theorem witness_OutWrittenOnlyByLastPhase :
    ((running .eB58).host.agenda = [] ∧ ∃ t, stepWith toy (running .eB58) = .next t) ∧
      ((running .dB58).host.agenda = [] ∧ ∃ t, stepWith toy (running .dB58) = .next t ∧ t.status = 0x06) ∧
      holding.host.agenda = [] ∧ holding.cint.phase = .idle ∧ stepWith toy holding = .next holding :=
  ⟨⟨rfl, _, rfl⟩, ⟨rfl, _, rfl, rfl⟩, rfl, rfl, rfl⟩

theorem witness_IdleRetainsAllState :
    holding.cint.phase = .idle ∧ holding.host.agenda = [] ∧
      (holding.expecting .turn).cint.phase = .idle ∧ (holding.expecting .turn).host.agenda = .turn :: [] :=
  ⟨rfl, rfl, rfl, rfl⟩

/-- An empty passphrase and an ASCII one, for each of the two commands. -/
theorem witness_ScryptGetsNormalisedPassphrase :
    ∀ v : Byte, v = 0x01 ∨ v = 0x02 →
      aboutToCommand (commanding v ClassIn.zero ClassOut.zero) v ∧
        (commanding v ClassIn.zero ClassOut.zero).cin.plen = 0x00 ∧ pNfcAscii toy ∧
        aboutToCommand (commanding v { ClassIn.zero with plen := 18, pass := Buf.ofBytes 255 pass } ClassOut.zero) v ∧
        ∀ b ∈ (commanding v { ClassIn.zero with plen := 18, pass := Buf.ofBytes 255 pass } ClassOut.zero).passphrase,
          b.toNat < 0x80 := by
  intro v hv
  refine ⟨about _ _ _, rfl, toy_keeps_nfc_contracts.2.2, about _ _ _, ?_⟩
  rcases hv with rfl | rfl <;> decide

theorem witness_HostCannotWriteOut :
    (∃ t, exec (.wr 0x000 0x02) holding = .next t) ∧ ∃ t, exec (.wr 0x0C0 0xFF) holding = .next t :=
  ⟨⟨_, rfl⟩, _, rfl⟩

theorem witness_EncRunsItsFunction : aboutToCommand (commanding 0x01 encOperands ClassOut.zero) 0x01 := about _ _ _

/-- For DecRunsItsFunction, NoScryptBeforeChecks and AcceptedKeyHasMatchingHash. -/
theorem witness_DecRunsItsFunction : aboutToCommand (commanding 0x02 decOperands ClassOut.zero) 0x02 := about _ _ _

theorem witness_RoundTripRecoversKey :
    aesContract toy ∧ base58Contract toy ∧ toy.cap = 0x1FF ∧
      toy.ecpub (commanding 0x01 encOperands ClassOut.zero).cin.keyIn = some [] ∧
      aboutToCommand (commanding 0x01 encOperands ClassOut.zero) 0x01 ∧
      aboutToCommand (commanding 0x02 otherPass ClassOut.zero) 0x02 ∧
      normalise toy (commanding 0x02 otherPass ClassOut.zero).passphrase =
        normalise toy (commanding 0x01 encOperands ClassOut.zero).passphrase :=
  ⟨toy_keeps_aes_contract, toy_keeps_base58_contract, rfl, rfl, about _ _ _, about _ _ _, by decide⟩

theorem toyBlob_decoded (o : ClassOut) :
    base58Decode toy (commanding 0x02 decOperands o).encrypted = some toyBlob := by
  have h : (commanding 0x02 decOperands o).encrypted = textBytes (toy.b58enc toyBlob) := by
    have := Buf.take_bytes_ofBytes (n := 64) (Nat.le_of_eq (length_pack toyBlob))
    rwa [length_pack] at this
  rw [h]
  exact toy_keeps_base58_contract toyBlob (by decide)

theorem toyBlob_accepted : decBlob toy toyBlob [] = .ok (Buf.zero 32, false) := decGives_iff (by decide)

theorem witness_ReEncryptionRebuildsBlob :
    aesContract toy ∧ aboutToCommand (commanding 0x02 decOperands ClassOut.zero) 0x02 ∧
      aboutToCommand (commanding 0x01 ClassIn.zero ClassOut.zero) 0x01 ∧
      base58Decode toy (commanding 0x02 decOperands ClassOut.zero).encrypted = some toyBlob ∧
      decFunction toy (commanding 0x02 decOperands ClassOut.zero).cin.elenIn.toNat
          (commanding 0x02 decOperands ClassOut.zero).encrypted
          (commanding 0x02 decOperands ClassOut.zero).passphrase = .ok (Buf.zero 32, false) ∧
      (commanding 0x01 ClassIn.zero ClassOut.zero).cin.keyIn = Buf.zero 32 ∧
      (commanding 0x01 ClassIn.zero ClassOut.zero).compIn = false ∧
      (commanding 0x01 ClassIn.zero ClassOut.zero).passphrase =
        (commanding 0x02 decOperands ClassOut.zero).passphrase := by
  have hd := toyBlob_decoded ClassOut.zero
  refine ⟨toy_keeps_aes_contract, about _ _ _, about _ _ _, hd, ?_, rfl, by decide, rfl⟩
  have hp : (commanding 0x02 decOperands ClassOut.zero).passphrase = [] := rfl
  have hl : ¬ 64 < (commanding 0x02 decOperands ClassOut.zero).cin.elenIn.toNat := by decide
  have hc : ¬ toy.cap ≠ Config.capAll := fun h => h rfl
  rw [decFunction, if_neg hc, if_neg hl, hd, hp]
  exact toyBlob_accepted

/-- Two byte strings with one NFC8 image, for each of the two commands. -/
theorem witness_NormalisedPassphrasesEquivalent :
    ∀ v : Byte, v = 0x01 ∨ v = 0x02 →
      aboutToCommand (commanding v { otherPass with keyIn := key } ClassOut.zero) v ∧
        aboutToCommand (commanding v { encOperands with ctrl := 0x00 } ClassOut.zero) v ∧
        (commanding v { encOperands with ctrl := 0x00 } ClassOut.zero).cin.keyIn =
          (commanding v { otherPass with keyIn := key } ClassOut.zero).cin.keyIn ∧
        (commanding v { encOperands with ctrl := 0x00 } ClassOut.zero).compIn =
          (commanding v { otherPass with keyIn := key } ClassOut.zero).compIn ∧
        (commanding v { encOperands with ctrl := 0x00 } ClassOut.zero).cin.elenIn =
          (commanding v { otherPass with keyIn := key } ClassOut.zero).cin.elenIn ∧
        (commanding v { encOperands with ctrl := 0x00 } ClassOut.zero).encrypted =
          (commanding v { otherPass with keyIn := key } ClassOut.zero).encrypted ∧
        normalise toy (commanding v { encOperands with ctrl := 0x00 } ClassOut.zero).passphrase =
          normalise toy (commanding v { otherPass with keyIn := key } ClassOut.zero).passphrase := by
  intro v hv
  refine ⟨about _ _ _, about _ _ _, rfl, rfl, rfl, rfl, ?_⟩
  rcases hv with rfl | rfl <;> decide

/-- Two states that differ in everything ENC ignores. -/
theorem witness_OnlyEncOperandsMatter :
    aboutToCommand (commanding 0x01 encOperands ClassOut.zero) 0x01 ∧
      aboutToCommand (commanding 0x01 { encOperands with elenIn := 64, estrIn := decOperands.estrIn } holding.cout) 0x01 ∧
      (commanding 0x01 { encOperands with elenIn := 64, estrIn := decOperands.estrIn } holding.cout).cin.keyIn =
        (commanding 0x01 encOperands ClassOut.zero).cin.keyIn ∧
      (commanding 0x01 { encOperands with elenIn := 64, estrIn := decOperands.estrIn } holding.cout).compIn =
        (commanding 0x01 encOperands ClassOut.zero).compIn ∧
      (commanding 0x01 { encOperands with elenIn := 64, estrIn := decOperands.estrIn } holding.cout).passphrase =
        (commanding 0x01 encOperands ClassOut.zero).passphrase :=
  ⟨about _ _ _, about _ _ _, rfl, rfl, rfl⟩

/-- Two states that differ in everything DEC ignores. -/
theorem witness_OnlyDecOperandsMatter :
    aboutToCommand (commanding 0x02 decOperands ClassOut.zero) 0x02 ∧
      aboutToCommand (commanding 0x02 { decOperands with keyIn := key, ctrl := 0x01 } holding.cout) 0x02 ∧
      (commanding 0x02 { decOperands with keyIn := key, ctrl := 0x01 } holding.cout).cin.elenIn =
        (commanding 0x02 decOperands ClassOut.zero).cin.elenIn ∧
      (commanding 0x02 { decOperands with keyIn := key, ctrl := 0x01 } holding.cout).encrypted =
        (commanding 0x02 decOperands ClassOut.zero).encrypted ∧
      (commanding 0x02 { decOperands with keyIn := key, ctrl := 0x01 } holding.cout).passphrase =
        (commanding 0x02 decOperands ClassOut.zero).passphrase :=
  ⟨about _ _ _, about _ _ _, rfl, rfl, rfl⟩

theorem witness_ForgottenStringIsMalformed :
    aboutToCommand (commanding 0x02 encOperands ClassOut.zero) 0x02 ∧
      (commanding 0x02 encOperands ClassOut.zero).cin.elenIn = 0x00 := ⟨about _ _ _, rfl⟩

theorem witness_BusyAccessesLeaveBlock :
    ({ running .eKdf with
          host := { agenda := [accessWord 0 0x001 0, accessWord 1 0x000 0x03].map .access, reads := [] } } : State).busy = true ∧
      ({ running .eKdf with
          host := { agenda := [accessWord 0 0x001 0, accessWord 1 0x000 0x03].map .access, reads := [] } } :
            State).host.agenda = [accessWord 0 0x001 0, accessWord 1 0x000 0x03].map .access := ⟨rfl, rfl⟩

theorem statusInv_running : StatusInv (running .eKdf) where
  legal := by decide
  busy_iff := by decide
  err_iff := by decide
  code_le := by decide
  op_eq := by decide

/-- Running, and just before each end of a command. -/
theorem witness_StatusInvariantKept :
    StatusInv (running .eKdf) ∧ ∃ t, step (running .eKdf) = .next t := ⟨statusInv_running, _, rfl⟩

theorem witness_LifetimeInvariantKept :
    StatusInv (running .eKdf) ∧ LifetimeInv (running .eKdf) ∧ ∃ t, step (running .eKdf) = .next t :=
  ⟨statusInv_running, ⟨fun _ => rfl, fun _ => rfl, fun h => absurd h (by decide)⟩, _, rfl⟩

/-- E_DONE with a string of 64 characters, the longest there is. -/
theorem witness_FormatInvariantKept :
    let s : State := { running .eDone with
      cint := { (running .eDone).cint with s := List.replicate 64 0x31, flagb := 0xC0 } }
    FormatInv s ∧ ∃ t, step s = .next t :=
  ⟨⟨by decide, by decide, by decide, by decide, fun i _ => Buf.get_zero 64 i, fun _ => rfl⟩, _, rfl⟩

/-- A trace of one true answer, and a step that adds another. -/
theorem witness_TraceHoldsPortAnswers :
    let s : State := { running .eAddr with trace := [⟨⟨0b00110, [[0x61]]⟩, some [0x61]⟩] }
    TraceInv toy s ∧ ∃ t, stepWith toy s = .next t := by
  refine ⟨fun e he => ?_, _, rfl⟩
  obtain rfl := List.mem_singleton.mp he
  exact ⟨.nfc8 [0x61], by decide, by decide⟩

end Sys2Proof.Tests
end

section
/-! SUPPORT. What a port request leaves in the port trace, and what one step of the machine can do. -/

namespace Sys2Proof.Machine

variable {C : Capabilities} {s t : State}

/-! ### Port requests and the port trace (R101, R102, R120) -/

/-- A request that decodes is the encoding of the instruction it decodes to: the decoder loses no field. -/
theorem encode_of_decodePort {w : PortWord} {i : Instr} (h : decodePort w = .ok i) : encode i = .portsel w := by
  obtain ⟨selector, fields⟩ := w
  have selector_eq {k : Nat} (hk : selector.toNat = k) : BitVec.ofNat 5 k = selector := by simp [← hk]
  unfold decodePort at h
  split at h
  case h_11 => split at h <;> cases h
  all_goals
    rename_i hsel hfields
    obtain rfl : _ = fields := hfields.symm
    obtain rfl := selector_eq hsel
  case h_1 | h_2 | h_4 | h_6 | h_9 =>
    split at h
    · cases h
      simp [encode, Buf.bytes_ofBytes, *]
    · cases h
  case h_5 | h_10 =>
    split at h
    · cases h; rfl
    · cases h
  all_goals cases h; rfl

/-- A port request answers the state with the port's answer in hand and one more entry of the port trace (R120). -/
theorem execWith_portsel {i : Instr} {w : PortWord} (h : encode i = .portsel w) (C : Capabilities) (s : State) :
    ∃ r, portAnswer C i = some r ∧ execWith C i s = .next (s.answered w r) := by
  cases i
  case aesEnc | aesDec | sha256d | scrypt | nfc8 | ecpub | eccomp | address | b58enc | b58dec43 =>
    cases h
    exact ⟨_, rfl, rfl⟩
  all_goals cases h

/-- What serving the phase's request can do: nothing when it sends none, else the answer of the port it decodes to. -/
theorem served_cases (C : Capabilities) (s : State) :
    served C s = s ∨
      ∃ w i r, decodePort w = .ok i ∧ portAnswer C i = some r ∧ served C s = s.answered w r := by
  cases hw : portRequest s with
  | none => exact .inl (served_none hw)
  | some w =>
    obtain ⟨i, _, hi, _⟩ := answerable C s w hw
    obtain ⟨r, hr, hexec⟩ := execWith_portsel (encode_of_decodePort hi) C s
    exact .inr ⟨w, i, r, hi, hr, served_of hw hi hexec⟩

theorem served_host (C : Capabilities) (s : State) : (served C s).host = s.host := by
  obtain h | ⟨w, _, r, _, _, h⟩ := served_cases C s <;> simp [h]

/-! ### The phases -/

/-- What a phase does to the state it finds: nothing in IDLE, else it moves PHASE on within class INT, ends the command
with an error, or writes class OUT and ends it without one. -/
inductive PhaseEffect (s : State) : State → Prop where
  | idle : PhaseEffect s s
  | advance (p : Phase) (r : ClassInt) : PhaseEffect s (s.advance p r)
  | raise (e : ErrorKind) : PhaseEffect s (s.raise e)
  | complete (out : ClassOut) : PhaseEffect s { s with cout := out }.complete

theorem requireCap_effect (cap : BitVec 9) (p : Phase) (r : ClassInt) :
    PhaseEffect s (requireCap cap s (s.advance p r)) := by
  unfold requireCap
  split
  · exact .advance p r
  · exact .raise _

/-- Every phase has one of the four effects (R160, R190, R273). -/
theorem finishPhase_effect (cap : BitVec 9) (s : State) : PhaseEffect s (finishPhase cap s) := by
  unfold finishPhase
  cases s.cint.phase
  case idle => exact .idle
  case eStart | dStart => exact requireCap_effect cap _ _
  case ePub | eComp | dB58 | dCsum | dMode | dPub | dComp | dVerify =>
    simp only [phaseEPub, phaseEComp, phaseDB58, phaseDCsum, phaseDMode, phaseDPub, phaseDComp, phaseDVerify]
    repeat' split
    all_goals constructor
  case eDone | dDone => exact .complete _
  all_goals exact .advance _ _

theorem PhaseEffect.trace_eq (h : PhaseEffect s t) : t.trace = s.trace := by cases h <;> rfl

theorem PhaseEffect.host_eq (h : PhaseEffect s t) : t.host = s.host := by cases h <;> rfl

/-! ### One turn of the sequencer -/

/-- The state after one turn of the sequencer: the request of the phase in hand is served, then the phase is performed
(`sequencerTurn_eq`). -/
def turn (C : Capabilities) (s : State) : State := finishPhase C.cap (served C s)

theorem turn_trace (C : Capabilities) (s : State) : (turn C s).trace = (served C s).trace :=
  (finishPhase_effect C.cap _).trace_eq

theorem turn_host (C : Capabilities) (s : State) : (turn C s).host = s.host :=
  (finishPhase_effect C.cap _).host_eq.trans (served_host C s)

theorem stepWith_eq_turn (h : s.host.agenda = []) : stepWith C s = .next (turn C s) := stepWith_sequencer h

/-- Left to itself the machine takes one turn of the sequencer after the other. -/
theorem runWith_eq_iterate_turn (n : Nat) (h : s.host.agenda = []) : runWith C n s = .next ((turn C)^[n] s) := by
  induction n generalizing s with
  | zero => rfl
  | succ n ih =>
    rw [runWith_succ (stepWith_eq_turn h), ih (by rw [turn_host, h]), Function.iterate_succ_apply]

/-! ### One step of the machine -/

/-- What a step does with the state `u` the agenda leaves it: a turn of the sequencer, a host write, a host read, or a
reset (R12). -/
inductive StepEffect (C : Capabilities) (u : State) : State → Prop where
  | turn : StepEffect C u (turn C u)
  | write (a : Addr) (v : Byte) (t : State) (h : execWr a v u = .next t) : StepEffect C u t
  | read (a : Addr) : StepEffect C u (u.returned (u.memRead C.cap a))
  | reset : StepEffect C u u.toReset

/-- Every step takes at most one event off the agenda and has one of the four effects. -/
theorem stepWith_effect (C : Capabilities) (s : State) :
    ∃ rest t, stepWith C s = .next t ∧ StepEffect C (s.withAgenda rest) t := by
  cases h : s.host.agenda with
  | nil =>
    have hs : s.withAgenda [] = s := by rw [← h]; rfl
    exact ⟨[], turn C s, stepWith_eq_turn h, hs.symm ▸ .turn⟩
  | cons e rest =>
    refine ⟨rest, ?_⟩
    cases e with
    | turn => exact ⟨_, stepWith_turn h, .turn⟩
    | reset => exact ⟨_, stepWith_reset h, .reset⟩
    | access w =>
      rw [stepWith_access h]
      obtain ⟨a, v, _, hx⟩ | ⟨a, _, hx⟩ := execWith_access C w (s.withAgenda rest)
      · exact ⟨_, hx.trans (execWr_eq a v _), .write a v _ (execWr_eq a v _)⟩
      · exact ⟨_, hx, .read a⟩

/-- No step stops (R257, R308). -/
theorem stepWith_next (C : Capabilities) (s : State) : ∃ t, stepWith C s = .next t := by
  obtain ⟨_, t, h, _⟩ := stepWith_effect C s
  exact ⟨t, h⟩

/-- A host write leaves the port trace as it is, or empties it with the start of a command (R91). -/
theorem execWr_trace {a : Addr} {v : Byte} (h : execWr a v s = .next t) : t.trace = s.trace ∨ t.trace = [] := by
  rw [execWr_eq] at h
  cases h
  repeat' split
  all_goals simp

end Sys2Proof.Machine
end

section
/-! SUPPORT. The port trace is a record of true answers (R13, R101, R120). -/

namespace Sys2Proof.Machine

variable {C : Capabilities} {s t : State}

theorem TraceInv.of_nil (h : s.trace = []) : TraceInv C s := fun e he => by simp [h] at he

theorem TraceInv.congr (hs : TraceInv C s) (h : t.trace = s.trace) : TraceInv C t := by rwa [TraceInv, h]

/-- Serving a request records the answer of the port's function at the arguments the request decodes to. -/
theorem TraceInv.served (hs : TraceInv C s) : TraceInv C (served C s) := by
  obtain h | ⟨w, i, r, hi, hr, h⟩ := served_cases C s
  · rwa [h]
  · rw [h]
    intro e he
    rw [State.answered_trace, List.mem_append, List.mem_singleton] at he
    obtain hold | rfl := he
    · exact hs e hold
    · exact ⟨i, hi, hr⟩

theorem TraceInv.stepEffect (hs : TraceInv C s) (h : StepEffect C s t) : TraceInv C t := by
  cases h with
  | turn => exact hs.served.congr (turn_trace C s)
  | write a v _ hw =>
    obtain hkept | hnil := execWr_trace hw
    · exact hs.congr hkept
    · exact .of_nil hnil
  | read a => exact hs
  | reset => exact .of_nil rfl

/-- Settles O53: a turn of the sequencer adds a true answer or nothing, every other step keeps the trace or empties
it. -/
theorem traceHoldsPortAnswers : Obligations.TraceHoldsPortAnswers := by
  intro C s t hs ht
  obtain ⟨rest, t', hstep, heffect⟩ := stepWith_effect C s
  obtain rfl : t' = t := by simpa [hstep] using ht
  exact TraceInv.stepEffect (s := s.withAgenda rest) hs heffect

/-! ### The chip and its step -/

/-- Settles O34, by induction on the number of steps: the machine over the chip's parameters takes the chip's step, and
no step stops. -/
theorem runsAgreeWithCore : Obligations.RunsAgreeWithCore := by
  intro n
  induction n with
  | zero => exact fun _ => rfl
  | succ n ih =>
    intro s
    obtain ⟨t, ht⟩ := stepWith_next Config.attached s
    rw [core_run_succ ((stepWith_attached s).symm.trans ht), runWith_succ ht, ih]

/-- Settles O17: each of the four meanings is the record of its answer (`State.answered`), scrypt's cost parameters
being the constants of R7. -/
theorem cryptoPortsAnswer : Obligations.CryptoPortsAnswer :=
  fun _ _ _ _ _ => ⟨rfl, rfl, rfl, rfl⟩

theorem step_of_agenda_nil (h : s.host.agenda = []) : step s = sequencerTurn Config.cap exec s := by
  simp only [step, stepUsing, h]; rfl

theorem step_of_agenda_turn {rest : List HostEvent} (h : s.host.agenda = .turn :: rest) :
    step s = sequencerTurn Config.cap exec (s.withAgenda rest) := by
  simp only [step, stepUsing, h]; rfl

theorem step_of_agenda_access {w : BitVec 18} {rest : List HostEvent} (h : s.host.agenda = .access w :: rest) :
    step s = runWord exec (.hostacc w) (s.withAgenda rest) := by
  simp only [step, stepUsing, h]

theorem runWord_of_decode {ex : Instr → State → Outcome} {w : FetchWord} {i : Instr} (h : decode w = .ok i)
    (s : State) : runWord ex w s = ex i s := by
  simp only [runWord, h]

theorem sequencerTurn_of_none {cap : BitVec 9} {ex : Instr → State → Outcome} (h : portRequest s = none) :
    sequencerTurn cap ex s = .next (finishPhase cap s) := by
  simp only [sequencerTurn, h]

theorem sequencerTurn_of_some {cap : BitVec 9} {ex : Instr → State → Outcome} {w : PortWord}
    (h : portRequest s = some w) (hx : runWord ex (.portsel w) s = .next t) :
    sequencerTurn cap ex s = .next (finishPhase cap t) := by
  simp only [sequencerTurn, h, hx]

/-- Settles O20, one clause for each way the agenda and the phase can stand. -/
theorem stepRunsDecodedInstruction : Obligations.StepRunsDecodedInstruction := by
  refine ⟨fun s w rest i hagenda hi => ?access, fun s t w i hagenda hw hi ht => ?request,
    fun s hagenda hnone => ?silent, fun s rest hagenda => step_of_agenda_turn hagenda⟩
  case access => rw [step_of_agenda_access hagenda, runWord_of_decode hi]
  case request =>
    rw [step_of_agenda_nil hagenda, sequencerTurn_of_some hw ((runWord_of_decode hi s).trans ht)]
  case silent => rw [step_of_agenda_nil hagenda, sequencerTurn_of_none hnone]

end Sys2Proof.Machine
end

section
/-! SUPPORT. One turn of the sequencer in each phase, as one equation: what it changes of class INT and which request it
adds to the port trace (R161 to R176, R191 to R209). -/

namespace Sys2Proof.Machine

variable {C : Capabilities} {s : State}

/-- What the port trace records of an instruction: its request and the port's answer, or nothing for an instruction that
is no port request. -/
def eventOf (C : Capabilities) (i : Instr) : List PortEvent :=
  match encode i, portAnswer C i with
  | .portsel w, some r => [⟨w, r⟩]
  | _, _ => []

/-- What the port trace records of a series of requests. -/
def events (C : Capabilities) (requests : List Instr) : List PortEvent := requests.flatMap (eventOf C)

@[simp] theorem events_nil : events C [] = [] := rfl

theorem events_append (l l' : List Instr) : events C (l ++ l') = events C l ++ events C l' :=
  List.flatMap_append

/-- The entry an answered request leaves is the one `events` gives its instruction. -/
theorem events_singleton {i : Instr} {w : PortWord} {r : Option Bytes} (hw : encode i = .portsel w)
    (hr : portAnswer C i = some r) : events C [i] = [⟨w, r⟩] := by
  simp [events, eventOf, hw, hr]

@[simp] theorem requireCap_eq (cap : BitVec 9) (s go : State) :
    requireCap cap s go = if cap = Config.capAll then go else s.raise .capabilityUnavailable := rfl

theorem turn_idle (h : s.cint.phase = .idle) : turn C s = s := by
  simp [turn, served_idle h, finishPhase, h]

theorem iterate_turn_idle (n : Nat) (h : s.cint.phase = .idle) : (turn C)^[n] s = s :=
  Function.iterate_fixed (turn_idle h) n

/-! ### ENC -/

theorem turn_eStart (h : s.cint.phase = .eStart) :
    turn C s =
      if C.cap = Config.capAll then { s with cint := { s.cint with phase := .eFlag, resp := none } }
      else s.raise .capabilityUnavailable := by
  simp [turn, served_eStart h, finishPhase, h, phaseEStart, State.advance]

theorem turn_eFlag (h : s.cint.phase = .eFlag) :
    turn C s =
      { s with cint := { s.cint with
          comp := s.compIn, flagb := flagByte s.compIn, phase := .eNorm, resp := none } } := by
  simp [turn, served_eFlag h, finishPhase, h, phaseEFlag, State.advance]

theorem turn_eNorm (h : s.cint.phase = .eNorm) :
    turn C s =
      { s with
        cint := { s.cint with np := normalise C s.passphrase, phase := .ePub, resp := none }
        trace := s.trace ++ events C [.nfc8 s.passphrase] } := by
  simp [turn, served_eNorm h, finishPhase, h, phaseENorm, State.advance, State.answered, State.answer]
  rfl

theorem turn_ePub (h : s.cint.phase = .ePub) :
    turn C s =
      match C.ecpub s.cin.keyIn with
      | none => State.raise { s with trace := s.trace ++ events C [.ecpub s.cin.keyIn] } .invalidKeyFormat
      | some pub =>
        { s with
          cint := { s.cint with pub := pub, phase := .eComp, resp := none }
          trace := s.trace ++ events C [.ecpub s.cin.keyIn] } := by
  rw [events_singleton (i := .ecpub s.cin.keyIn) rfl rfl]
  cases hp : C.ecpub s.cin.keyIn <;>
    simp [turn, served_ePub h, finishPhase, h, phaseEPub, State.advance, State.answered, hp, State.raise]

/-- The requests of E_COMP and D_COMP (R165, R206). -/
def compRequests (comp : Bool) (pub : Bytes) : List Instr := if comp then [.eccomp pub] else []

theorem turn_eComp (h : s.cint.phase = .eComp) :
    turn C s =
      { s with
        cint := { s.cint with pub := encodedPub C s.cint.comp s.cint.pub, phase := .eAddr, resp := none }
        trace := s.trace ++ events C (compRequests s.cint.comp s.cint.pub) } := by
  cases hc : s.cint.comp
  · simp [turn, served_eComp_uncompressed h hc, finishPhase, h, phaseEComp, State.advance, hc, encodedPub, compRequests]
  · simp [turn, served_eComp_compressed h hc, finishPhase, h, phaseEComp, State.advance, hc, encodedPub, compRequests,
      State.answered, State.answer]
    rfl

theorem turn_eAddr (h : s.cint.phase = .eAddr) :
    turn C s =
      { s with
        cint := { s.cint with addr := asciiBytes (C.address s.cint.pub), phase := .eSalt, resp := none }
        trace := s.trace ++ events C [.address s.cint.pub] } := by
  simp [turn, served_eAddr h, finishPhase, h, phaseEAddr, State.advance, State.answered, State.answer]
  rfl

theorem turn_eSalt (h : s.cint.phase = .eSalt) :
    turn C s =
      { s with
        cint := { s.cint with
          h := C.sha256d s.cint.addr, salt := addrHash C s.cint.addr, phase := .eKdf, resp := none }
        trace := s.trace ++ events C [.sha256d s.cint.addr] } := by
  simp [turn, served_eSalt h, finishPhase, h, phaseESalt, State.advance, State.answered, State.answer, addrHash]
  rfl

theorem turn_eKdf (h : s.cint.phase = .eKdf) :
    turn C s =
      { s with
        cint := { s.cint with dk := stretch C s.cint.np s.cint.salt, phase := .eXor1, resp := none }
        trace := s.trace ++ events C [.scrypt s.cint.np s.cint.salt] } := by
  simp [turn, served_eKdf h, finishPhase, h, phaseEKdf, State.advance, State.answered, State.answer]
  rfl

theorem turn_eXor1 (h : s.cint.phase = .eXor1) :
    turn C s =
      { s with cint := { s.cint with
          x := xor16 s.keyFirst (maskFirst s.cint.dk), phase := .eAes1, resp := none } } := by
  simp [turn, served_eXor1 h, finishPhase, h, phaseEXor1, State.advance]

theorem turn_eAes1 (h : s.cint.phase = .eAes1) :
    turn C s =
      { s with
        cint := { s.cint with
          eh1 := C.aes256Enc (derivedHalf2 s.cint.dk) s.cint.x, phase := .eXor2, resp := none }
        trace := s.trace ++ events C [.aesEnc (derivedHalf2 s.cint.dk) s.cint.x] } := by
  simp [turn, served_eAes1 h, finishPhase, h, phaseEAes1, State.advance, State.answered, State.answer]
  rfl

theorem turn_eXor2 (h : s.cint.phase = .eXor2) :
    turn C s =
      { s with cint := { s.cint with
          x := xor16 s.keySecond (maskSecond s.cint.dk), phase := .eAes2, resp := none } } := by
  simp [turn, served_eXor2 h, finishPhase, h, phaseEXor2, State.advance]

theorem turn_eAes2 (h : s.cint.phase = .eAes2) :
    turn C s =
      { s with
        cint := { s.cint with
          eh2 := C.aes256Enc (derivedHalf2 s.cint.dk) s.cint.x, phase := .eFrame, resp := none }
        trace := s.trace ++ events C [.aesEnc (derivedHalf2 s.cint.dk) s.cint.x] } := by
  simp [turn, served_eAes2 h, finishPhase, h, phaseEAes2, State.advance, State.answered, State.answer]
  rfl

theorem turn_eFrame (h : s.cint.phase = .eFrame) :
    turn C s =
      { s with cint := { s.cint with
          blob := Buf.splice s.cint.blob 0 (frame39 s.cint.flagb s.cint.salt s.cint.eh1 s.cint.eh2)
          phase := .eCsum, resp := none } } := by
  simp [turn, served_eFrame h, finishPhase, h, phaseEFrame, State.advance]

theorem turn_eCsum (h : s.cint.phase = .eCsum) :
    turn C s =
      { s with
        cint := { s.cint with
          h := C.sha256d (Buf.bytes (blobBody s.cint.blob))
          blob := Buf.splice s.cint.blob 39 (csum4 C (blobBody s.cint.blob))
          phase := .eB58, resp := none }
        trace := s.trace ++ events C [.sha256d (Buf.bytes (blobBody s.cint.blob))] } := by
  simp [turn, served_eCsum h, finishPhase, h, phaseECsum, State.advance, State.answered, State.answer, csum4]
  rfl

theorem turn_eB58 (h : s.cint.phase = .eB58) :
    turn C s =
      { s with
        cint := { s.cint with s := textBytes (C.b58enc s.cint.blob), phase := .eDone, resp := none }
        trace := s.trace ++ events C [.b58enc s.cint.blob] } := by
  simp [turn, served_eB58 h, finishPhase, h, phaseEB58, State.advance, State.answered, State.answer]
  rfl

theorem turn_eDone (h : s.cint.phase = .eDone) :
    turn C s =
      { s with
        cin := ClassIn.zero, cint := ClassInt.zero, status := statusDone
        cout := { s.cout with
          estrOut := Buf.ofBytes 64 s.cint.s, outElen := BitVec.ofNat 8 s.cint.s.length } } := by
  simp [turn, served_eDone h, finishPhase, h, phaseEDone, State.complete]

/-! ### DEC -/

theorem turn_dStart (h : s.cint.phase = .dStart) :
    turn C s =
      if C.cap = Config.capAll then { s with cint := { s.cint with phase := .dB58, resp := none } }
      else s.raise .capabilityUnavailable := by
  simp [turn, served_dStart h, finishPhase, h, phaseDStart, State.advance]

theorem turn_dB58_tooLong (h : s.cint.phase = .dB58) (hl : s.elenTooLong = true) :
    turn C s = s.raise .malformedCiphertext := by
  simp [turn, served_dB58_tooLong h hl, finishPhase, h, phaseDB58, hl]

theorem turn_dB58_asked (h : s.cint.phase = .dB58) (hl : s.elenTooLong = false) :
    turn C s =
      match base58Decode C s.encrypted with
      | none => State.raise { s with trace := s.trace ++ events C [.b58dec43 s.encrypted] } .malformedCiphertext
      | some blob =>
        { s with
          cint := { s.cint with blob := blob, phase := .dCsum, resp := none }
          trace := s.trace ++ events C [.b58dec43 s.encrypted] } := by
  have hl' (r : Option Bytes) (w : PortWord) : (s.answered w r).elenTooLong = false := hl
  rw [events_singleton (i := .b58dec43 s.encrypted) rfl rfl]
  cases hd : base58Decode C s.encrypted <;>
    simp [turn, served_dB58_asked h hl, finishPhase, h, phaseDB58, hl', hd, State.advance, State.raise]

theorem turn_dCsum (h : s.cint.phase = .dCsum) :
    turn C s =
      let trace := s.trace ++ events C [.sha256d (Buf.bytes (blobBody s.cint.blob))]
      if csum4 C (blobBody s.cint.blob) = blobCsum s.cint.blob then
        { s with
          cint := { s.cint with h := C.sha256d (Buf.bytes (blobBody s.cint.blob)), phase := .dMode, resp := none }
          trace := trace }
      else State.raise { s with trace := trace } .malformedCiphertext := by
  simp [turn, served_dCsum h, finishPhase, h, phaseDCsum, State.advance, State.answered, State.answer, eqBytes_iff,
    State.raise, csum4, events_singleton (i := .sha256d (Buf.bytes (blobBody s.cint.blob))) rfl rfl]

theorem turn_dMode (h : s.cint.phase = .dMode) :
    turn C s =
      if versionOk s.cint.blob then
        match compOfFlag (blobFlag s.cint.blob) with
        | none => s.raise .unsupportedMode
        | some comp =>
          { s with cint := { s.cint with
              flagb := blobFlag s.cint.blob, comp := comp, phase := .dSplit, resp := none } }
      else s.raise .unsupportedMode := by
  cases hflag : compOfFlag (blobFlag s.cint.blob) <;>
    simp [turn, served_dMode h, finishPhase, h, phaseDMode, State.advance, hflag]

theorem turn_dSplit (h : s.cint.phase = .dSplit) :
    turn C s =
      { s with cint := { s.cint with
          salt := blobSalt s.cint.blob, eh1 := blobHalf1 s.cint.blob, eh2 := blobHalf2 s.cint.blob
          phase := .dNorm, resp := none } } := by
  simp [turn, served_dSplit h, finishPhase, h, phaseDSplit, State.advance, deframe43]

theorem turn_dNorm (h : s.cint.phase = .dNorm) :
    turn C s =
      { s with
        cint := { s.cint with np := normalise C s.passphrase, phase := .dKdf, resp := none }
        trace := s.trace ++ events C [.nfc8 s.passphrase] } := by
  simp [turn, served_dNorm h, finishPhase, h, phaseDNorm, State.advance, State.answered, State.answer]
  rfl

theorem turn_dKdf (h : s.cint.phase = .dKdf) :
    turn C s =
      { s with
        cint := { s.cint with dk := stretch C s.cint.np s.cint.salt, phase := .dAes1, resp := none }
        trace := s.trace ++ events C [.scrypt s.cint.np s.cint.salt] } := by
  simp [turn, served_dKdf h, finishPhase, h, phaseDKdf, State.advance, State.answered, State.answer]
  rfl

theorem turn_dAes1 (h : s.cint.phase = .dAes1) :
    turn C s =
      { s with
        cint := { s.cint with x := C.aes256Dec (derivedHalf2 s.cint.dk) s.cint.eh1, phase := .dXor1, resp := none }
        trace := s.trace ++ events C [.aesDec (derivedHalf2 s.cint.dk) s.cint.eh1] } := by
  simp [turn, served_dAes1 h, finishPhase, h, phaseDAes1, State.advance, State.answered, State.answer]
  rfl

theorem turn_dXor1 (h : s.cint.phase = .dXor1) :
    turn C s =
      { s with cint := { s.cint with
          k := Buf.splice s.cint.k 0 (xor16 s.cint.x (maskFirst s.cint.dk)), phase := .dAes2, resp := none } } := by
  simp [turn, served_dXor1 h, finishPhase, h, phaseDXor1, State.advance]

theorem turn_dAes2 (h : s.cint.phase = .dAes2) :
    turn C s =
      { s with
        cint := { s.cint with x := C.aes256Dec (derivedHalf2 s.cint.dk) s.cint.eh2, phase := .dXor2, resp := none }
        trace := s.trace ++ events C [.aesDec (derivedHalf2 s.cint.dk) s.cint.eh2] } := by
  simp [turn, served_dAes2 h, finishPhase, h, phaseDAes2, State.advance, State.answered, State.answer]
  rfl

theorem turn_dXor2 (h : s.cint.phase = .dXor2) :
    turn C s =
      { s with cint := { s.cint with
          k := Buf.splice s.cint.k 16 (xor16 s.cint.x (maskSecond s.cint.dk)), phase := .dPub, resp := none } } := by
  simp [turn, served_dXor2 h, finishPhase, h, phaseDXor2, State.advance]

theorem turn_dPub (h : s.cint.phase = .dPub) :
    turn C s =
      match C.ecpub s.cint.k with
      | none => State.raise { s with trace := s.trace ++ events C [.ecpub s.cint.k] } .wrongPassphrase
      | some pub =>
        { s with
          cint := { s.cint with pub := pub, phase := .dComp, resp := none }
          trace := s.trace ++ events C [.ecpub s.cint.k] } := by
  rw [events_singleton (i := .ecpub s.cint.k) rfl rfl]
  cases hp : C.ecpub s.cint.k <;>
    simp [turn, served_dPub h, finishPhase, h, phaseDPub, State.advance, State.answered, hp, State.raise]

theorem turn_dComp (h : s.cint.phase = .dComp) :
    turn C s =
      { s with
        cint := { s.cint with pub := encodedPub C s.cint.comp s.cint.pub, phase := .dAddr, resp := none }
        trace := s.trace ++ events C (compRequests s.cint.comp s.cint.pub) } := by
  cases hc : s.cint.comp
  · simp [turn, served_dComp_uncompressed h hc, finishPhase, h, phaseDComp, State.advance, hc, encodedPub, compRequests]
  · simp [turn, served_dComp_compressed h hc, finishPhase, h, phaseDComp, State.advance, hc, encodedPub, compRequests,
      State.answered, State.answer]
    rfl

theorem turn_dAddr (h : s.cint.phase = .dAddr) :
    turn C s =
      { s with
        cint := { s.cint with addr := asciiBytes (C.address s.cint.pub), phase := .dVerify, resp := none }
        trace := s.trace ++ events C [.address s.cint.pub] } := by
  simp [turn, served_dAddr h, finishPhase, h, phaseDAddr, State.advance, State.answered, State.answer]
  rfl

theorem turn_dVerify (h : s.cint.phase = .dVerify) :
    turn C s =
      let trace := s.trace ++ events C [.sha256d s.cint.addr]
      if addrHash C s.cint.addr = s.cint.salt then
        { s with
          cint := { s.cint with h := C.sha256d s.cint.addr, phase := .dDone, resp := none }
          trace := trace }
      else State.raise { s with trace := trace } .wrongPassphrase := by
  simp [turn, served_dVerify h, finishPhase, h, phaseDVerify, State.advance, State.answered, State.answer, eqBytes_iff,
    State.raise, addrHash, events_singleton (i := .sha256d s.cint.addr) rfl rfl]

theorem turn_dDone (h : s.cint.phase = .dDone) :
    turn C s =
      { s with
        cin := ClassIn.zero, cint := ClassInt.zero, status := statusDone
        cout := { s.cout with keyOut := s.cint.k, outFlags := outFlagsOf s.cint.comp } } := by
  simp [turn, served_dDone h, finishPhase, h, phaseDDone, State.complete]

end Sys2Proof.Machine
end

section
/-! SUPPORT. Whole commands: the sixteen turns of ENC and of DEC, stretch by stretch, and the one function each
computes (R160, R190). -/

namespace Sys2Proof

/-- Overwriting the first `m` bytes and then the rest leaves nothing of the buffer's former content. -/
theorem Buf.splice_splice {n m k : Nat} (hn : m + k = n) (v : Buf n) (a : Buf m) (b : Buf k) :
    Buf.splice (Buf.splice v 0 a) m b = Buf.ofBytes n (Buf.bytes a ++ Buf.bytes b) := by
  refine Buf.ext_get fun i hi => ?_
  rw [Buf.get_splice, Buf.get_splice, Buf.get_ofBytes, if_pos hi]
  by_cases him : i < m
  · rw [if_neg (by omega), if_pos (by omega), List.getD_append _ _ _ _ (by simpa), Buf.getD_bytes, Nat.sub_zero]
  · rw [if_pos (by omega), List.getD_append_right _ _ _ _ (by simpa using him), Buf.getD_bytes, Buf.length_bytes]

/-- The bytes just written are read back. -/
theorem Buf.slice_splice_zero {n m : Nat} (h : m ≤ n) (v : Buf n) (a : Buf m) :
    Buf.slice (Buf.splice v 0 a) 0 m = a := by
  refine Buf.ext_get fun i hi => ?_
  rw [Buf.get_slice, if_pos hi, Buf.get_splice, if_pos (by omega), Nat.zero_add, Nat.sub_zero]

namespace Machine

theorem blobBody_splice (blob : Buf 43) (body : Buf 39) : blobBody (Buf.splice blob 0 body) = body :=
  Buf.slice_splice_zero (by omega) blob body

theorem splice_body_csum (blob : Buf 43) (body : Buf 39) (csum : Buf 4) :
    Buf.splice (Buf.splice blob 0 body) 39 csum = blobOf body csum :=
  Buf.splice_splice (by omega) blob body csum

theorem splice_halves (k : Buf 32) (a b : Buf 16) : Buf.splice (Buf.splice k 0 a) 16 b = join16 a b :=
  Buf.splice_splice (by omega) k a b

variable {C : Capabilities} {s : State}

/-! ### The operands belong to class IN (R21, R92) -/

section Operands

variable (s : State) (out : ClassOut) (status errcode : Byte) (r : ClassInt) (trace : List PortEvent) (host : HostSide)

@[simp] theorem State.passphrase_mk :
    State.passphrase ⟨s.cin, out, status, errcode, r, trace, host⟩ = s.passphrase := rfl

@[simp] theorem State.compIn_mk : State.compIn ⟨s.cin, out, status, errcode, r, trace, host⟩ = s.compIn := rfl

@[simp] theorem State.keyFirst_mk : State.keyFirst ⟨s.cin, out, status, errcode, r, trace, host⟩ = s.keyFirst := rfl

@[simp] theorem State.keySecond_mk :
    State.keySecond ⟨s.cin, out, status, errcode, r, trace, host⟩ = s.keySecond := rfl

@[simp] theorem State.encrypted_mk :
    State.encrypted ⟨s.cin, out, status, errcode, r, trace, host⟩ = s.encrypted := rfl

@[simp] theorem State.elenTooLong_mk :
    State.elenTooLong ⟨s.cin, out, status, errcode, r, trace, host⟩ = s.elenTooLong := rfl

end Operands

/-! ### Both commands -/

/-- A command runs, is in phase `p`, and has written no result yet (R26, R32, R91). -/
structure Running (s : State) (p : Phase) : Prop where
  phase_eq : s.cint.phase = p
  out_zero : s.cout = ClassOut.zero
  err_zero : s.errcode = 0x00

theorem running_iff {p : Phase} : Running s p ↔ s.cint.phase = p ∧ s.cout = ClassOut.zero ∧ s.errcode = 0x00 :=
  ⟨fun ⟨hphase, hout, herr⟩ => ⟨hphase, hout, herr⟩, fun ⟨hphase, hout, herr⟩ => ⟨hphase, hout, herr⟩⟩

/-- The state the command write leaves, with nothing more on the agenda (R91). -/
def commandStart (s : State) (op : Op) (p : Phase) : State := (s.withAgenda []).begin op p

theorem commandStart_running (s : State) (op : Op) (p : Phase) : Running (commandStart s op p) p := ⟨rfl, rfl, rfl⟩

theorem commandStart_agenda (s : State) (op : Op) (p : Phase) : (commandStart s op p).host.agenda = [] := rfl

/-- The write of a command byte to CMD while BUSY = 0 (R63, R91). -/
theorem stepWith_command {v : Byte} (h : aboutToCommand s v) :
    stepWith C s = .next
      (if v = 0x01 then commandStart s .enc .eStart else if v = 0x02 then commandStart s .dec .dStart
       else if v = 0x03 then (s.withAgenda []).toReset else (s.withAgenda []).illegalCommand) := by
  obtain ⟨hbusy, hagenda⟩ := h
  have hbusy' : (s.withAgenda []).busy = false := hbusy
  rw [stepWith_access hagenda, decodeAccess_write]
  exact (execWr_eq 0x000 v _).trans (by simp [hbusy', commandStart])

/-- A run of ENC is the command write and then turns of the sequencer. -/
theorem runWith_enc (n : Nat) (h : aboutToCommand s 0x01) :
    runWith C (n + 1) s = .next ((turn C)^[n] (commandStart s .enc .eStart)) := by
  rw [runWith_succ (stepWith_command h), if_pos rfl]
  exact runWith_eq_iterate_turn n (commandStart_agenda s _ _)

/-- A run of DEC, likewise. -/
theorem runWith_dec (n : Nat) (h : aboutToCommand s 0x02) :
    runWith C (n + 1) s = .next ((turn C)^[n] (commandStart s .dec .dStart)) := by
  rw [runWith_succ (stepWith_command h), if_neg (by decide), if_pos rfl]
  exact runWith_eq_iterate_turn n (commandStart_agenda s _ _)

/-- A command that has ended with an error idles from there on (R262, R273). -/
theorem iterate_turn_raise (n : Nat) (s : State) (e : ErrorKind) :
    (turn C)^[n] (s.raise e) = completed statusError e.code ClassOut.zero s.trace s.host :=
  iterate_turn_idle n rfl

theorem turn_raise (s : State) (e : ErrorKind) : turn C (s.raise e) = s.raise e := turn_idle rfl

theorem addrHash_encodedPub (C : Capabilities) (comp : Bool) (pub : Bytes) :
    addrHash C (asciiBytes (C.address (encodedPub C comp pub))) = pubHash C comp pub := rfl

/-! ### ENC (R160) -/

/-- E_COMP to E_SALT: the address-hash of the public key (R165 to R167). -/
theorem turns_eComp_to_eKdf (h : s.cint.phase = .eComp) :
    (turn C)^[3] s =
      let pub := encodedPub C s.cint.comp s.cint.pub
      let addr := asciiBytes (C.address pub)
      { s with
        cint := { s.cint with
          pub := pub, addr := addr, h := C.sha256d addr, salt := addrHash C addr, phase := .eKdf, resp := none }
        trace := s.trace ++ events C (compRequests s.cint.comp s.cint.pub ++ [.address pub, .sha256d addr]) } := by
  simp [turn_eComp h, turn_eAddr, turn_eSalt, ← events_append]

/-- E_KDF to E_AES2: the two encrypted halves (R168 to R172). -/
theorem turns_eKdf_to_eFrame (h : s.cint.phase = .eKdf) :
    (turn C)^[5] s =
      let dk := stretch C s.cint.np s.cint.salt
      let x₁ := xor16 s.keyFirst (maskFirst dk)
      let x₂ := xor16 s.keySecond (maskSecond dk)
      { s with
        cint := { s.cint with
          dk := dk, x := x₂, eh1 := C.aes256Enc (derivedHalf2 dk) x₁, eh2 := C.aes256Enc (derivedHalf2 dk) x₂
          phase := .eFrame, resp := none }
        trace := s.trace ++
          events C [.scrypt s.cint.np s.cint.salt, .aesEnc (derivedHalf2 dk) x₁, .aesEnc (derivedHalf2 dk) x₂] } := by
  simp [turn_eKdf h, turn_eXor1, turn_eAes1, turn_eXor2, turn_eAes2, ← events_append]

/-- E_FRAME to E_DONE: the result is the text of the framed and checksummed BLOB (R173 to R176). -/
theorem turns_eFrame_to_idle (h : Running s .eFrame) :
    (turn C)^[4] s =
      let body := frame39 s.cint.flagb s.cint.salt s.cint.eh1 s.cint.eh2
      let blob := blobOf body (csum4 C body)
      encOutcome (.ok (textBytes (C.b58enc blob)))
        (s.trace ++ events C [.sha256d (Buf.bytes body), .b58enc blob]) s.host := by
  obtain ⟨hphase, hout, herr⟩ := h
  simp [turn_eFrame hphase, turn_eCsum, turn_eB58, turn_eDone, blobBody_splice, splice_body_csum, ← events_append,
    encOutcome, completed, hout, herr]

/-- The requests ENC makes from E_COMP on, when the public key is `pub` (R160). -/
def encPubRequests (C : Capabilities) (key : Buf 32) (comp : Bool) (pass pub : Bytes) : List Instr :=
  let addr := asciiBytes (C.address (encodedPub C comp pub))
  let dk := stretch C (normalise C pass) (addrHash C addr)
  compRequests comp pub ++
    [.address (encodedPub C comp pub), .sha256d addr, .scrypt (normalise C pass) (addrHash C addr),
      .aesEnc (derivedHalf2 dk) (xor16 (Buf.slice key 0 16) (maskFirst dk)),
      .aesEnc (derivedHalf2 dk) (xor16 (Buf.slice key 16 16) (maskSecond dk)),
      .sha256d (Buf.bytes (encBody C key comp pass pub)), .b58enc (encBlob C key comp pass pub)]

/-- The requests ENC makes, in order (R160). -/
def encRequests (C : Capabilities) (key : Buf 32) (comp : Bool) (pass : Bytes) : List Instr :=
  if C.cap ≠ Config.capAll then []
  else
    [.nfc8 pass, .ecpub key] ++
      (match C.ecpub key with
      | none => []
      | some pub => encPubRequests C key comp pass pub)

/-- E_COMP to E_DONE: what ENC makes of the public key (R165 to R176). -/
theorem turns_eComp_to_idle {pass : Bytes} (h : Running s .eComp) (hnp : s.cint.np = normalise C pass)
    (hflag : s.cint.flagb = flagByte s.cint.comp) :
    (turn C)^[12] s =
      encOutcome (.ok (textBytes (C.b58enc (encBlob C s.cin.keyIn s.cint.comp pass s.cint.pub))))
        (s.trace ++ events C (encPubRequests C s.cin.keyIn s.cint.comp pass s.cint.pub)) s.host := by
  obtain ⟨hphase, hout, herr⟩ := h
  simp only [show 12 = 4 + (5 + 3) from rfl, Function.iterate_add_apply, turns_eComp_to_eKdf hphase,
    turns_eKdf_to_eFrame, turns_eFrame_to_idle, running_iff, hout, herr, and_self]
  simp [← events_append, encPubRequests, encBlob, encBody, pubHash, hnp, hflag, State.keyFirst, State.keySecond]

/-- E_FLAG and E_NORM: the flag and the normalised passphrase (R162, R163). -/
theorem turns_eFlag_to_ePub (h : s.cint.phase = .eFlag) :
    (turn C)^[2] s =
      { s with
        cint := { s.cint with
          comp := s.compIn, flagb := flagByte s.compIn, np := normalise C s.passphrase
          phase := .ePub, resp := none }
        trace := s.trace ++ events C [.nfc8 s.passphrase] } := by
  simp [turn_eFlag h, turn_eNorm]

/-- E_START to E_DONE: the sixteen turns of ENC compute its one function (R160). -/
theorem turns_enc (h : Running s .eStart) :
    (turn C)^[16] s =
      encOutcome (encFunction C s.cin.keyIn s.compIn s.passphrase)
        (s.trace ++ events C (encRequests C s.cin.keyIn s.compIn s.passphrase)) s.host := by
  obtain ⟨hphase, hout, herr⟩ := h
  rw [Function.iterate_add_apply _ 15 1, Function.iterate_one, turn_eStart hphase]
  by_cases hcap : C.cap = Config.capAll
  case neg => simp [hcap, iterate_turn_raise, encFunction, encRequests, encOutcome]
  rw [if_pos hcap, Function.iterate_add_apply _ 13 2, turns_eFlag_to_ePub rfl, Function.iterate_add_apply _ 12 1,
    Function.iterate_one, turn_ePub rfl]
  cases hkey : C.ecpub s.cin.keyIn with
  | none =>
    simp [hkey, iterate_turn_raise, encFunction, encRequests, hcap, encOutcome, ← events_append]
  | some pub =>
    simp only [turns_eComp_to_idle (pass := s.passphrase), running_iff, hout, herr, and_self, State.passphrase_mk,
      State.compIn_mk]
    simp [encFunction, encRequests, hcap, hkey, ← events_append]

/-! ### DEC (R190) -/

/-- D_SPLIT to D_XOR2: the candidate key (R197 to R203). -/
theorem turns_dSplit_to_dPub (h : s.cint.phase = .dSplit) :
    (turn C)^[7] s =
      let blob := s.cint.blob
      let np := normalise C s.passphrase
      let dk := stretch C np (blobSalt blob)
      { s with
        cint := { s.cint with
          salt := blobSalt blob, eh1 := blobHalf1 blob, eh2 := blobHalf2 blob, np := np, dk := dk
          x := C.aes256Dec (derivedHalf2 dk) (blobHalf2 blob), k := candidateKey C blob s.passphrase
          phase := .dPub, resp := none }
        trace := s.trace ++
          events C [.nfc8 s.passphrase, .scrypt np (blobSalt blob), .aesDec (derivedHalf2 dk) (blobHalf1 blob),
            .aesDec (derivedHalf2 dk) (blobHalf2 blob)] } := by
  simp [turn_dSplit h, turn_dNorm, turn_dKdf, turn_dAes1, turn_dXor1, turn_dAes2, turn_dXor2, splice_halves,
    ← events_append, candidateKey]

/-- What D_PUB to D_VERIFY make of a candidate key: accepted when its address has the hash `salt` (R205 to R208). -/
def verifyKey (C : Capabilities) (key : Buf 32) (comp : Bool) (salt : Buf 4) : Except ErrorKind (Buf 32 × Bool) :=
  match C.ecpub key with
  | none => .error .wrongPassphrase
  | some pub => if pubHash C comp pub ≠ salt then .error .wrongPassphrase else .ok (key, comp)

/-- A BLOB that passes the checks of D_CSUM and D_MODE (R194, R196) leaves the verification of its candidate key. -/
theorem decBlob_of_checks {blob : Buf 43} {comp : Bool} {pass : Bytes}
    (hcsum : csum4 C (blobBody blob) = blobCsum blob) (hversion : versionOk blob = true)
    (hflag : compOfFlag (blobFlag blob) = some comp) :
    decBlob C blob pass = verifyKey C (candidateKey C blob pass) comp (blobSalt blob) := by
  cases hkey : C.ecpub (candidateKey C blob pass) <;> simp [decBlob, verifyKey, hcsum, hversion, hflag, hkey]

/-- The requests of D_PUB to D_VERIFY (R205 to R208). -/
def verifyRequests (C : Capabilities) (key : Buf 32) (comp : Bool) : List Instr :=
  .ecpub key ::
    (match C.ecpub key with
    | none => []
    | some pub =>
      compRequests comp pub ++
        [.address (encodedPub C comp pub), .sha256d (asciiBytes (C.address (encodedPub C comp pub)))])

/-- D_COMP to D_DONE: the address-hash of the public key is compared with the one of the BLOB (R206 to R209). -/
theorem turns_dComp_to_idle (h : Running s .dComp) :
    (turn C)^[4] s =
      let pub := encodedPub C s.cint.comp s.cint.pub
      decOutcome
        (if pubHash C s.cint.comp s.cint.pub ≠ s.cint.salt then .error .wrongPassphrase
         else .ok (s.cint.k, s.cint.comp))
        (s.trace ++ events C
          (compRequests s.cint.comp s.cint.pub ++ [.address pub, .sha256d (asciiBytes (C.address pub))])) s.host := by
  obtain ⟨hphase, hout, herr⟩ := h
  by_cases hhash : pubHash C s.cint.comp s.cint.pub = s.cint.salt
  · simp [turn_dComp hphase, turn_dAddr, turn_dVerify, turn_dDone, addrHash_encodedPub, hhash, hout, herr,
      decOutcome, completed, ← events_append]
  · simp [turn_dComp hphase, turn_dAddr, turn_dVerify, addrHash_encodedPub, hhash, turn_raise, decOutcome,
      ← events_append]
    rfl

/-- D_PUB to D_DONE: the candidate key is accepted or not (R205 to R209). -/
theorem turns_dPub_to_idle (h : Running s .dPub) :
    (turn C)^[5] s =
      decOutcome (verifyKey C s.cint.k s.cint.comp s.cint.salt)
        (s.trace ++ events C (verifyRequests C s.cint.k s.cint.comp)) s.host := by
  obtain ⟨hphase, hout, herr⟩ := h
  rw [Function.iterate_add_apply _ 4 1, Function.iterate_one, turn_dPub hphase]
  cases hkey : C.ecpub s.cint.k with
  | none => simp [iterate_turn_raise, verifyKey, verifyRequests, hkey, decOutcome]
  | some pub =>
    simp only [turns_dComp_to_idle, running_iff, hout, herr, and_self]
    simp [verifyKey, verifyRequests, hkey, ← events_append]

/-- The requests of D_SPLIT to D_VERIFY (R197 to R208). -/
def decKeyRequests (C : Capabilities) (blob : Buf 43) (pass : Bytes) (comp : Bool) : List Instr :=
  let dk := stretch C (normalise C pass) (blobSalt blob)
  [.nfc8 pass, .scrypt (normalise C pass) (blobSalt blob), .aesDec (derivedHalf2 dk) (blobHalf1 blob),
      .aesDec (derivedHalf2 dk) (blobHalf2 blob)] ++
    verifyRequests C (candidateKey C blob pass) comp

/-- The requests of DEC from D_CSUM on (R190): none beyond SHA256D before the checks pass. -/
def decBlobRequests (C : Capabilities) (blob : Buf 43) (pass : Bytes) : List Instr :=
  .sha256d (Buf.bytes (blobBody blob)) ::
    (if csum4 C (blobBody blob) = blobCsum blob ∧ versionOk blob then
      match compOfFlag (blobFlag blob) with
      | none => []
      | some comp => decKeyRequests C blob pass comp
    else [])

/-- The requests DEC makes, in order (R190). -/
def decRequests (C : Capabilities) (elen : Nat) (str pass : Bytes) : List Instr :=
  if C.cap ≠ Config.capAll then []
  else if 64 < elen then []
  else
    .b58dec43 str ::
      (match base58Decode C str with
      | none => []
      | some blob => decBlobRequests C blob pass)

/-- D_SPLIT to D_DONE: the candidate key of the BLOB is computed and verified (R197 to R209). -/
theorem turns_dSplit_to_idle (h : Running s .dSplit) :
    (turn C)^[12] s =
      decOutcome (verifyKey C (candidateKey C s.cint.blob s.passphrase) s.cint.comp (blobSalt s.cint.blob))
        (s.trace ++ events C (decKeyRequests C s.cint.blob s.passphrase s.cint.comp)) s.host := by
  obtain ⟨hphase, hout, herr⟩ := h
  rw [Function.iterate_add_apply _ 5 7, turns_dSplit_to_dPub hphase]
  simp only [turns_dPub_to_idle, running_iff, hout, herr, and_self]
  simp [decKeyRequests, ← events_append]

/-- D_CSUM to D_DONE: what DEC makes of a BLOB (R194 to R209). -/
theorem turns_dCsum_to_idle (h : Running s .dCsum) :
    (turn C)^[14] s =
      decOutcome (decBlob C s.cint.blob s.passphrase)
        (s.trace ++ events C (decBlobRequests C s.cint.blob s.passphrase)) s.host := by
  obtain ⟨hphase, hout, herr⟩ := h
  rw [Function.iterate_add_apply _ 13 1, Function.iterate_one, turn_dCsum hphase]
  by_cases hcsum : csum4 C (blobBody s.cint.blob) = blobCsum s.cint.blob
  case neg => simp [hcsum, iterate_turn_raise, decBlob, decBlobRequests, decOutcome]
  simp only [if_pos hcsum, Function.iterate_add_apply _ 12 1, Function.iterate_one, turn_dMode]
  cases hversion : versionOk s.cint.blob
  case false => simp [hcsum, hversion, iterate_turn_raise, decBlob, decBlobRequests, decOutcome]
  cases hflag : compOfFlag (blobFlag s.cint.blob) with
  | none => simp [hcsum, hversion, hflag, iterate_turn_raise, decBlob, decBlobRequests, decOutcome]
  | some comp =>
    simp only [if_true, turns_dSplit_to_idle, running_iff, hout, herr, and_self, State.passphrase_mk]
    simp [decBlob_of_checks hcsum hversion hflag, hcsum, hversion, hflag, decBlobRequests, ← events_append]

/-- D_START to D_DONE: the sixteen turns of DEC compute its one function (R190). -/
theorem turns_dec (h : Running s .dStart) :
    (turn C)^[16] s =
      decOutcome (decFunction C s.cin.elenIn.toNat s.encrypted s.passphrase)
        (s.trace ++ events C (decRequests C s.cin.elenIn.toNat s.encrypted s.passphrase)) s.host := by
  obtain ⟨hphase, hout, herr⟩ := h
  rw [Function.iterate_add_apply _ 15 1, Function.iterate_one, turn_dStart hphase]
  by_cases hcap : C.cap = Config.capAll
  case neg => simp [hcap, iterate_turn_raise, decFunction, decRequests, decOutcome]
  rw [if_pos hcap, Function.iterate_add_apply _ 14 1, Function.iterate_one]
  cases hlong : s.elenTooLong
  case true =>
    have helen : 64 < s.cin.elenIn.toNat := by simpa [State.elenTooLong] using hlong
    simp only [turn_dB58_tooLong, State.elenTooLong_mk, hlong, iterate_turn_raise]
    simp [decFunction, decRequests, hcap, helen, decOutcome]
  have helen : ¬ 64 < s.cin.elenIn.toNat := by simpa [State.elenTooLong] using hlong
  simp only [turn_dB58_asked, State.elenTooLong_mk, hlong, State.encrypted_mk]
  cases hblob : base58Decode C s.encrypted with
  | none => simp [iterate_turn_raise, decFunction, decRequests, hcap, helen, hblob, decOutcome]
  | some blob =>
    simp only [turns_dCsum_to_idle, running_iff, hout, herr, and_self, State.passphrase_mk]
    simp [decFunction, decRequests, hcap, helen, hblob, ← events_append]

/-! ### The runs of both commands, and what they depend on (R14, R21) -/

/-- A run of ENC ends with the result of its one function, having made exactly its requests (R160, R176). -/
theorem runWith_enc_outcome (C : Capabilities) (h : aboutToCommand s 0x01) :
    runWith C 17 s = .next
      (encOutcome (encFunction C s.cin.keyIn s.compIn s.passphrase)
        (events C (encRequests C s.cin.keyIn s.compIn s.passphrase)) { agenda := [], reads := s.host.reads }) := by
  rw [runWith_enc 16 h, turns_enc (commandStart_running s _ _)]
  rfl

/-- A run of DEC, likewise (R190, R209). -/
theorem runWith_dec_outcome (C : Capabilities) (h : aboutToCommand s 0x02) :
    runWith C 17 s = .next
      (decOutcome (decFunction C s.cin.elenIn.toNat s.encrypted s.passphrase)
        (events C (decRequests C s.cin.elenIn.toNat s.encrypted s.passphrase))
        { agenda := [], reads := s.host.reads }) := by
  rw [runWith_dec 16 h, turns_dec (commandStart_running s _ _)]
  rfl

/-- The registers ENC leaves are those of its result; the trace and the host's side are no part of them. -/
theorem sameBlock_encOutcome (r : Except ErrorKind Bytes) (trace trace' : List PortEvent) (host host' : HostSide) :
    sameBlock (encOutcome r trace host) (encOutcome r trace' host') := by
  cases r <;> exact ⟨rfl, rfl, rfl, rfl, rfl⟩

/-- The registers DEC leaves, likewise. -/
theorem sameBlock_decOutcome (r : Except ErrorKind (Buf 32 × Bool)) (trace trace' : List PortEvent)
    (host host' : HostSide) : sameBlock (decOutcome r trace host) (decOutcome r trace' host') := by
  cases r <;> exact ⟨rfl, rfl, rfl, rfl, rfl⟩

/-- Settles O40: both runs end with the result of the one function of R160 at the same arguments. -/
theorem onlyEncOperandsMatter : Obligations.OnlyEncOperandsMatter := by
  intro C s s2 h h2 hkey hcomp hpass
  refine ⟨_, _, runWith_enc_outcome C h, runWith_enc_outcome C h2, ?_⟩
  rw [hkey, hcomp, hpass]
  exact sameBlock_encOutcome _ _ _ _ _

/-- Settles O41: both runs end with the result of the one function of R190 at the same arguments. -/
theorem onlyDecOperandsMatter : Obligations.OnlyDecOperandsMatter := by
  intro C s s2 h h2 helen hstr hpass
  refine ⟨_, _, runWith_dec_outcome C h, runWith_dec_outcome C h2, ?_⟩
  rw [helen, hstr, hpass]
  exact sameBlock_decOutcome _ _ _ _ _

end Machine
end Sys2Proof
end

section
/-! SUPPORT. One turn of the sequencer and one host write, each as its possible outcomes: what the statements about
PHASE, class OUT and the invariants need of them (R63, R91, R238, R262, R263). -/

namespace Sys2Proof.Machine

variable {C : Capabilities} {s t : State}

/-! ### How PHASE moves (R40, R238) -/

/-- `q` comes right after `p` in the same command: the next code of R40, with `p` neither IDLE nor a last phase. -/
def Phase.precedes (p q : Phase) : Bool :=
  p != .idle && p != .eDone && p != .dDone && q != .idle && q.op == p.op && q.code == p.code + 1

theorem Phase.precedes_iff {p q : Phase} :
    p.precedes q = true ↔
      p ≠ .idle ∧ p ≠ .eDone ∧ p ≠ .dDone ∧ q ≠ .idle ∧ q.op = p.op ∧ q.code = p.code + 1 := by
  simp [Phase.precedes, and_assoc]

/-- The turns of the sequencer a command still needs: a command's phases end at low nibble 0xF (R40). -/
def Phase.turnsLeft (p : Phase) : Nat := if p = .idle then 0 else 16 - p.code.toNat % 16

@[simp] theorem Phase.turnsLeft_idle : Phase.idle.turnsLeft = 0 := rfl

theorem Phase.turnsLeft_le (p : Phase) : p.turnsLeft ≤ 16 := by
  unfold Phase.turnsLeft
  split <;> omega

theorem Phase.turnsLeft_eq_zero {p : Phase} : p.turnsLeft = 0 ↔ p = .idle := by
  unfold Phase.turnsLeft
  split
  · next h => simp [h]
  · next h => simp only [h, iff_false]; omega

theorem Phase.turnsLeft_of_precedes {p q : Phase} (h : p.precedes q = true) : q.turnsLeft + 1 = p.turnsLeft := by
  obtain ⟨hp, hpe, hpd, hq, -, hcode⟩ := Phase.precedes_iff.mp h
  rw [Phase.turnsLeft, if_neg hq, hcode, Phase.turnsLeft, if_neg hp]
  cases p
  case eDone | dDone => contradiction
  all_goals rfl

/-! ### One turn of the sequencer -/

/-- What a phase that does not end the command does to class INT: PHASE moves to the next phase, OP stays, S stays
within 64 characters (R58), and FLAGB is and stays the flag byte of COMP once the mode is settled (R162, R196). -/
structure IntMove (i r : ClassInt) : Prop where
  next : i.phase.precedes r.phase = true
  op_eq : r.op = i.op
  str_le : i.s.length ≤ 64 → r.s.length ≤ 64
  flag_eq : (i.phase.modeSettled = true → i.flagb = flagByte i.comp) →
    r.phase.modeSettled = true → r.flagb = flagByte r.comp

/-- A move to the next phase that leaves S, FLAGB and COMP as they are and does not settle the mode. -/
theorem IntMove.of_kept {i r : ClassInt} {p : Phase} (hp : i.phase = p) (hnext : p.precedes r.phase = true)
    (hmode : r.phase.modeSettled = p.modeSettled) (hop : r.op = i.op) (hstr : r.s = i.s) (hflag : r.flagb = i.flagb)
    (hcomp : r.comp = i.comp) : IntMove i r where
  next := hp ▸ hnext
  op_eq := hop
  str_le := by rw [hstr]; exact id
  flag_eq := by rw [hmode, hflag, hcomp, hp]; exact id

/-- A command ends in the phase in hand with this error: the seven rows of R238. -/
def FailsWith (C : Capabilities) (s : State) : ErrorKind → Prop
  | .capabilityUnavailable => (s.cint.phase = .eStart ∨ s.cint.phase = .dStart) ∧ C.cap ≠ Config.capAll
  | .invalidKeyFormat => s.cint.phase = .ePub ∧ C.ecpub s.cin.keyIn = none
  | .malformedCiphertext =>
    (s.cint.phase = .dB58 ∧ (64 < s.cin.elenIn.toNat ∨ base58Decode C s.encrypted = none)) ∨
      (s.cint.phase = .dCsum ∧ csum4 C (blobBody s.cint.blob) ≠ blobCsum s.cint.blob)
  | .unsupportedMode =>
    s.cint.phase = .dMode ∧ (versionOk s.cint.blob = false ∨ compOfFlag (blobFlag s.cint.blob) = none)
  | .wrongPassphrase =>
    (s.cint.phase = .dPub ∧ C.ecpub s.cint.k = none) ∨
      (s.cint.phase = .dVerify ∧ addrHash C s.cint.addr ≠ s.cint.salt)
  | .illegalCommand => False

/-- Class OUT as the last phase of a command writes it (R176, R209). -/
inductive LastOutput (s : State) : ClassOut → Prop where
  | enc (h : s.cint.phase = .eDone) :
    LastOutput s { s.cout with estrOut := Buf.ofBytes 64 s.cint.s, outElen := BitVec.ofNat 8 s.cint.s.length }
  | dec (h : s.cint.phase = .dDone) :
    LastOutput s { s.cout with keyOut := s.cint.k, outFlags := outFlagsOf s.cint.comp }

/-- The outcomes of a turn of the sequencer. -/
inductive TurnEffect (C : Capabilities) (s : State) : State → Prop where
  | idle (h : s.cint.phase = .idle) : TurnEffect C s s
  | advance (r : ClassInt) (trace : List PortEvent) (h : IntMove s.cint r) :
    TurnEffect C s { s with cint := r, trace := trace }
  | fail (e : ErrorKind) (trace : List PortEvent) (h : FailsWith C s e) :
    TurnEffect C s (State.raise { s with trace := trace } e)
  | finish (out : ClassOut) (h : LastOutput s out) : TurnEffect C s { s with cout := out }.complete

/-- A phase that moves on and leaves S, FLAGB, COMP and OP as they are. -/
theorem TurnEffect.of_kept {p : Phase} {r : ClassInt} {trace : List PortEvent} (hp : s.cint.phase = p)
    (ht : t = { s with cint := r, trace := trace }) (hnext : p.precedes r.phase = true)
    (hmode : r.phase.modeSettled = p.modeSettled)
    (hkept : (r.op, r.s, r.flagb, r.comp) = (s.cint.op, s.cint.s, s.cint.flagb, s.cint.comp)) :
    TurnEffect C s t := by
  obtain ⟨hop, hstr, hflag, hcomp⟩ : r.op = _ ∧ r.s = _ ∧ r.flagb = _ ∧ r.comp = _ := by simpa using hkept
  exact ht ▸ .advance r trace (.of_kept hp hnext hmode hop hstr hflag hcomp)

theorem FailsWith.running {e : ErrorKind} (h : FailsWith C s e) : s.cint.phase ≠ .idle := by
  intro hidle
  cases e <;> simp [FailsWith, hidle] at h

theorem LastOutput.last {out : ClassOut} (h : LastOutput s out) :
    s.cint.phase = .eDone ∨ s.cint.phase = .dDone := by
  cases h with
  | enc h => exact .inl h
  | dec h => exact .inr h

/-- A text the base-58 port answers has at most 64 characters (R102, R135). -/
theorem length_textBytes_le (b : B58Text) : (textBytes b).length ≤ 64 := by
  simp [textBytes]

/-- Every flag byte that names a mode is the flag byte of that mode (R98). -/
theorem flagByte_of_compOfFlag {b : Byte} {comp : Bool} (h : compOfFlag b = some comp) : b = flagByte comp := by
  unfold compOfFlag at h
  split at h
  · next hb => cases h; exact hb
  · split at h
    · next hb => cases h; exact hb
    · cases h

/-- E_START and D_START: the strap decides (R161, R191). -/
theorem TurnEffect.of_start {p : Phase} {r : ClassInt} (hstart : s.cint.phase = .eStart ∨ s.cint.phase = .dStart)
    (hp : s.cint.phase = p)
    (ht : t = if C.cap = Config.capAll then { s with cint := r } else s.raise .capabilityUnavailable)
    (hnext : p.precedes r.phase = true) (hmode : r.phase.modeSettled = p.modeSettled)
    (hkept : (r.op, r.s, r.flagb, r.comp) = (s.cint.op, s.cint.s, s.cint.flagb, s.cint.comp)) :
    TurnEffect C s t := by
  by_cases hcap : C.cap = Config.capAll
  · exact .of_kept hp (trace := s.trace) (by rw [ht, if_pos hcap]) hnext hmode hkept
  · rw [ht, if_neg hcap]
    exact .fail .capabilityUnavailable s.trace ⟨hstart, hcap⟩

theorem turn_dB58_effect (hp : s.cint.phase = .dB58) : TurnEffect C s (turn C s) := by
  by_cases hlong : s.elenTooLong = true
  · rw [turn_dB58_tooLong hp hlong]
    exact .fail .malformedCiphertext s.trace (.inl ⟨hp, .inl (by simpa [State.elenTooLong] using hlong)⟩)
  · have hturn := turn_dB58_asked (C := C) hp (by simpa using hlong)
    cases hblob : base58Decode C s.encrypted with
    | none =>
      rw [hturn, hblob]
      exact .fail .malformedCiphertext _ (.inl ⟨hp, .inr hblob⟩)
    | some blob =>
      rw [hblob] at hturn
      exact .of_kept hp hturn rfl rfl rfl

theorem turn_dMode_effect (hp : s.cint.phase = .dMode) : TurnEffect C s (turn C s) := by
  rw [turn_dMode hp]
  by_cases hversion : versionOk s.cint.blob = true
  · rw [if_pos hversion]
    cases hflag : compOfFlag (blobFlag s.cint.blob) with
    | none => exact .fail .unsupportedMode s.trace ⟨hp, .inr hflag⟩
    | some comp =>
      exact .advance _ s.trace
        { next := by rw [hp]; rfl
          op_eq := rfl
          str_le := id
          flag_eq := fun _ _ => flagByte_of_compOfFlag hflag }
  · rw [if_neg hversion]
    exact .fail .unsupportedMode s.trace ⟨hp, .inl (by simpa using hversion)⟩

/-- Every turn of the sequencer has one of the four outcomes, by its phase (R160, R190, R238, R273). -/
theorem turn_effect (C : Capabilities) (s : State) : TurnEffect C s (turn C s) := by
  cases hp : s.cint.phase
  case idle => rw [turn_idle hp]; exact .idle hp
  case eStart => exact .of_start (.inl hp) hp (turn_eStart hp) rfl rfl rfl
  case eFlag =>
    rw [turn_eFlag hp]
    exact .advance _ s.trace { next := by rw [hp]; rfl, op_eq := rfl, str_le := id, flag_eq := fun _ _ => rfl }
  case eNorm => exact .of_kept hp (turn_eNorm hp) rfl rfl rfl
  case ePub =>
    cases hpub : C.ecpub s.cin.keyIn with
    | none =>
      rw [turn_ePub hp, hpub]
      exact .fail .invalidKeyFormat _ ⟨hp, hpub⟩
    | some pub =>
      have hturn := turn_ePub (C := C) hp
      rw [hpub] at hturn
      exact .of_kept hp hturn rfl rfl rfl
  case eComp => exact .of_kept hp (turn_eComp hp) rfl rfl rfl
  case eAddr => exact .of_kept hp (turn_eAddr hp) rfl rfl rfl
  case eSalt => exact .of_kept hp (turn_eSalt hp) rfl rfl rfl
  case eKdf => exact .of_kept hp (turn_eKdf hp) rfl rfl rfl
  case eXor1 => exact .of_kept hp (turn_eXor1 hp) rfl rfl rfl
  case eAes1 => exact .of_kept hp (turn_eAes1 hp) rfl rfl rfl
  case eXor2 => exact .of_kept hp (turn_eXor2 hp) rfl rfl rfl
  case eAes2 => exact .of_kept hp (turn_eAes2 hp) rfl rfl rfl
  case eFrame => exact .of_kept hp (turn_eFrame hp) rfl rfl rfl
  case eCsum => exact .of_kept hp (turn_eCsum hp) rfl rfl rfl
  case eB58 =>
    rw [turn_eB58 hp]
    exact .advance _ _
      { next := by rw [hp]; rfl
        op_eq := rfl
        str_le := fun _ => length_textBytes_le _
        flag_eq := fun hflag _ => hflag (by rw [hp]; rfl) }
  case eDone => rw [turn_eDone hp]; exact .finish _ (.enc hp)
  case dStart => exact .of_start (.inr hp) hp (turn_dStart hp) rfl rfl rfl
  case dB58 => exact turn_dB58_effect hp
  case dCsum =>
    by_cases hcsum : csum4 C (blobBody s.cint.blob) = blobCsum s.cint.blob
    · exact .of_kept hp ((turn_dCsum hp).trans (if_pos hcsum)) rfl rfl rfl
    · rw [(turn_dCsum hp).trans (if_neg hcsum)]
      exact .fail .malformedCiphertext _ (.inr ⟨hp, hcsum⟩)
  case dMode => exact turn_dMode_effect hp
  case dSplit => exact .of_kept hp (turn_dSplit hp) rfl rfl rfl
  case dNorm => exact .of_kept hp (turn_dNorm hp) rfl rfl rfl
  case dKdf => exact .of_kept hp (turn_dKdf hp) rfl rfl rfl
  case dAes1 => exact .of_kept hp (turn_dAes1 hp) rfl rfl rfl
  case dXor1 => exact .of_kept hp (turn_dXor1 hp) rfl rfl rfl
  case dAes2 => exact .of_kept hp (turn_dAes2 hp) rfl rfl rfl
  case dXor2 => exact .of_kept hp (turn_dXor2 hp) rfl rfl rfl
  case dPub =>
    cases hpub : C.ecpub s.cint.k with
    | none =>
      rw [turn_dPub hp, hpub]
      exact .fail .wrongPassphrase _ (.inl ⟨hp, hpub⟩)
    | some pub =>
      have hturn := turn_dPub (C := C) hp
      rw [hpub] at hturn
      exact .of_kept hp hturn rfl rfl rfl
  case dComp => exact .of_kept hp (turn_dComp hp) rfl rfl rfl
  case dAddr => exact .of_kept hp (turn_dAddr hp) rfl rfl rfl
  case dVerify =>
    by_cases hhash : addrHash C s.cint.addr = s.cint.salt
    · exact .of_kept hp ((turn_dVerify hp).trans (if_pos hhash)) rfl rfl rfl
    · rw [(turn_dVerify hp).trans (if_neg hhash)]
      exact .fail .wrongPassphrase _ (.inr ⟨hp, hhash⟩)
  case dDone => rw [turn_dDone hp]; exact .finish _ (.dec hp)

/-- With nothing on the agenda, a step is a turn and has its outcome. -/
theorem turnEffect_of_stepWith (h : s.host.agenda = []) (ht : stepWith C s = .next t) : TurnEffect C s t := by
  obtain rfl : turn C s = t := by simpa [stepWith_eq_turn h] using ht
  exact turn_effect C s

/-! ### One host write -/

/-- The outcomes of a host write (R63, R64, R65, R91). -/
inductive WriteEffect (s : State) (a : Addr) : State → Prop where
  | dropped : WriteEffect s a s
  | start (p : Phase) (ha : a = 0x000) (hp : p = .eStart ∨ p = .dStart) : WriteEffect s a (s.begin p.op p)
  | clr (ha : a = 0x000) : WriteEffect s a s.toReset
  | illegal (ha : a = 0x000) : WriteEffect s a s.illegalCommand
  | store (v : Byte) : WriteEffect s a (s.writeIn a v)

theorem execWr_effect {a : Addr} {v : Byte} (h : execWr a v s = .next t) : WriteEffect s a t := by
  rw [execWr_eq] at h
  cases h
  split
  · exact .dropped
  split
  case isFalse => exact .store v
  case isTrue ha =>
    split
    · exact .start .eStart ha (.inl rfl)
    split
    · exact .start .dStart ha (.inr rfl)
    split
    · exact .clr ha
    · exact .illegal ha

end Sys2Proof.Machine
end

section
/-! SUPPORT. The invariants of STATUS, of the register lifetimes and of the coded registers hold after reset and are
kept by every step (R20, R23, R26, R28, R29, R31, R32, R41, R58). -/

namespace Sys2Proof.Machine

variable {C : Capabilities} {s t : State}

/-- A property of the registers alone that every turn of the sequencer and every host write keeps, and that holds after
reset, is kept by the chip's step. -/
theorem step_keeps {I : State → Prop} (hblock : ∀ {s t}, I s → sameBlock s t → I t)
    (hturn : ∀ {s t}, I s → TurnEffect Config.attached s t → I t)
    (hwrite : ∀ {s t a}, I s → WriteEffect s a t → I t) (hreset : ∀ s : State, I s.toReset)
    (hs : I s) (ht : step s = .next t) : I t := by
  obtain ⟨rest, t', hstep, heffect⟩ := stepWith_effect Config.attached s
  obtain rfl : t' = t := by simpa [stepWith_attached, ht] using hstep.symm
  have hu : I (s.withAgenda rest) := hblock hs ⟨rfl, rfl, rfl, rfl, rfl⟩
  cases heffect with
  | turn => exact hturn hu (turn_effect _ _)
  | write a v _ hw => exact hwrite hu (execWr_effect hw)
  | read a => exact hblock hu ⟨rfl, rfl, rfl, rfl, rfl⟩
  | reset => exact hreset _

/-! ### STATUS, ERRCODE, PHASE and OP (R31, R32, R41) -/

theorem StatusInv.congr (hs : StatusInv s) (hstatus : t.status = s.status) (herr : t.errcode = s.errcode)
    (hint : t.cint = s.cint) : StatusInv t := by
  obtain ⟨legal, busy_iff, err_iff, code_le, op_eq⟩ := hs
  constructor <;> simpa [State.busy, State.err, hstatus, herr, hint]

theorem ErrorKind.code_le (e : ErrorKind) : e.code.toNat ≤ 6 := by cases e <;> decide

theorem ErrorKind.code_ne_zero (e : ErrorKind) : e.code ≠ 0x00 := by cases e <;> decide

/-- The state after a completion with error (R262). -/
theorem statusInv_raise (s : State) (e : ErrorKind) : StatusInv (s.raise e) where
  legal := .inr (.inr (.inr rfl))
  busy_iff := by simp [State.busy, statusError]
  err_iff := iff_of_true (by simp [State.err, statusError]) e.code_ne_zero
  code_le := e.code_le
  op_eq := rfl

/-- The state after a completion without error (R263): ERRCODE is 0x00 since the command started. -/
theorem statusInv_complete (h : s.errcode = 0x00) : StatusInv s.complete where
  legal := .inr (.inr (.inl rfl))
  busy_iff := by simp [State.busy, statusDone]
  err_iff := by simp [State.err, statusDone, h]
  code_le := by simp [h]
  op_eq := rfl

/-- The state after the start of a command (R91). -/
theorem statusInv_begin (s : State) {p : Phase} (hp : p ≠ .idle) : StatusInv (s.begin p.op p) where
  legal := .inr (.inl rfl)
  busy_iff := by simp [State.busy, statusBusy, hp]
  err_iff := by simp [State.err, statusBusy]
  code_le := by simp
  op_eq := rfl

theorem statusInv_toReset (s : State) : StatusInv s.toReset where
  legal := .inl rfl
  busy_iff := by simp [State.busy]
  err_iff := by simp [State.err]
  code_le := by simp
  op_eq := rfl

/-- ERRCODE is 0x00 while a command runs (R32). -/
theorem StatusInv.errcode_of_running (hs : StatusInv s) (h : s.cint.phase ≠ .idle) : s.errcode = 0x00 := by
  have hbusy : s.status.getLsbD 0 = true := hs.busy_iff.mpr h
  have herr : s.err = false := by
    obtain h | h | h | h := hs.legal <;> simp [State.err, h] at hbusy ⊢
  simpa [herr] using hs.err_iff

theorem StatusInv.turnEffect (hs : StatusInv s) (h : TurnEffect C s t) : StatusInv t := by
  cases h with
  | idle _ => exact hs
  | advance r trace hmove =>
    obtain ⟨hrunning, -, -, hnext, hop, -⟩ := Phase.precedes_iff.mp hmove.next
    exact
      { legal := hs.legal
        busy_iff := iff_of_true (hs.busy_iff.mpr hrunning) hnext
        err_iff := hs.err_iff
        code_le := hs.code_le
        op_eq := hmove.op_eq.trans (hs.op_eq.trans hop.symm) }
  | fail e trace _ => exact statusInv_raise _ e
  | finish out hout =>
    refine statusInv_complete (hs.errcode_of_running ?_)
    obtain hp | hp := hout.last <;> simp [hp]

theorem StatusInv.writeEffect {a : Addr} (hs : StatusInv s) (h : WriteEffect s a t) : StatusInv t := by
  cases h with
  | dropped => exact hs
  | start p _ hp => exact statusInv_begin s (by obtain rfl | rfl := hp <;> simp)
  | clr _ => exact statusInv_toReset s
  | illegal _ => exact statusInv_raise _ _
  | store v => exact hs.congr rfl rfl rfl

/-- Settles O47: every turn, every host write and reset keep the invariant. -/
theorem statusInvariantKept : Obligations.StatusInvariantKept := fun _ _ =>
  step_keeps (fun hs ⟨_, _, hstatus, herr, hint⟩ => hs.congr hstatus herr hint) StatusInv.turnEffect
    StatusInv.writeEffect statusInv_toReset

/-- Settles O48. -/
theorem statusInvariantAtReset : Obligations.StatusInvariantAtReset := statusInv_toReset State.reset

/-! ### The lifetimes of classes OUT and INT (R20, R26) -/

theorem LifetimeInv.congr (hs : LifetimeInv s) (hstatus : t.status = s.status) (hout : t.cout = s.cout)
    (hint : t.cint = s.cint) : LifetimeInv t := by
  obtain ⟨out_zero_running, out_zero_failed, int_zero_idle⟩ := hs
  constructor <;> simpa [State.err, hstatus, hout, hint]

/-- Class INT is zero, and so is class OUT unless the command succeeded: every completion, CLR and reset. -/
theorem lifetimeInv_of_int_zero (hint : t.cint = ClassInt.zero) (hout : t.err = true → t.cout = ClassOut.zero) :
    LifetimeInv t where
  out_zero_running := fun h => absurd (by rw [hint]; rfl) h
  out_zero_failed := hout
  int_zero_idle := fun _ => hint

theorem LifetimeInv.turnEffect (hs : LifetimeInv s) (h : TurnEffect C s t) : LifetimeInv t := by
  cases h with
  | idle _ => exact hs
  | advance r trace hmove =>
    obtain ⟨hrunning, -, -, hnext, -, -⟩ := Phase.precedes_iff.mp hmove.next
    have hout : s.cout = ClassOut.zero := hs.out_zero_running hrunning
    exact ⟨fun _ => hout, fun _ => hout, fun hidle => absurd hidle hnext⟩
  | fail e trace _ => exact lifetimeInv_of_int_zero rfl fun _ => rfl
  | finish out _ => exact lifetimeInv_of_int_zero rfl fun herr => by simp [State.err, statusDone] at herr

theorem LifetimeInv.writeEffect {a : Addr} (hs : LifetimeInv s) (h : WriteEffect s a t) : LifetimeInv t := by
  cases h with
  | dropped => exact hs
  | start p _ hp =>
    exact ⟨fun _ => rfl, fun _ => rfl, fun hidle => by obtain rfl | rfl := hp <;> cases hidle⟩
  | clr _ => exact lifetimeInv_of_int_zero rfl fun _ => rfl
  | illegal _ => exact lifetimeInv_of_int_zero rfl fun _ => rfl
  | store v => exact hs.congr rfl rfl rfl

/-- Settles O49: every turn, every host write and reset keep the lifetimes; the invariant of STATUS is not
needed. -/
theorem lifetimeInvariantKept : Obligations.LifetimeInvariantKept := fun _ _ _ =>
  step_keeps (fun hs ⟨_, hout, hstatus, _, hint⟩ => hs.congr hstatus hout hint) LifetimeInv.turnEffect
    LifetimeInv.writeEffect fun _ => lifetimeInv_of_int_zero rfl fun _ => rfl

/-- Settles O50. -/
theorem lifetimeInvariantAtReset : Obligations.LifetimeInvariantAtReset :=
  lifetimeInv_of_int_zero rfl fun _ => rfl

/-! ### Reserved bits, string lengths and the flag byte (R23, R28, R29, R58, R162, R196) -/

theorem FormatInv.congr (hs : FormatInv s) (hin : t.cin.ctrl = s.cin.ctrl) (hout : t.cout = s.cout)
    (hint : t.cint = s.cint) : FormatInv t := by
  obtain ⟨ctrl_reserved, outFlags_reserved, str_le, elen_le, estr_tail, flag_eq⟩ := hs
  constructor <;> simpa [hin, hout, hint]

/-- A completion leaves classes IN and INT zero, so that the formats of class OUT alone are left to see to. -/
theorem formatInv_of_zero (hin : t.cin = ClassIn.zero) (hint : t.cint = ClassInt.zero)
    (hflags : t.cout.outFlags &&& outFlagsMask = t.cout.outFlags) (helen : t.cout.outElen.toNat ≤ 64)
    (htail : ∀ i, t.cout.outElen.toNat ≤ i → Buf.get t.cout.estrOut i = 0x00) : FormatInv t where
  ctrl_reserved := by simp [hin]
  outFlags_reserved := hflags
  str_le := by simp [hint]
  elen_le := helen
  estr_tail := htail
  flag_eq := by simp [hint, Phase.modeSettled]

/-- Every end of a command with class OUT zero (R262), CLR and reset (R56). -/
theorem formatInv_of_all_zero (hin : t.cin = ClassIn.zero) (hint : t.cint = ClassInt.zero)
    (hout : t.cout = ClassOut.zero) : FormatInv t :=
  formatInv_of_zero hin hint (by simp [hout]) (by simp [hout]) fun i _ => by simp [hout, Buf.get_zero]

/-- E_DONE and D_DONE write class OUT in its formats (R176, R209). -/
theorem FormatInv.lastOutput {out : ClassOut} (hs : FormatInv s) (h : LastOutput s out) :
    out.outFlags &&& outFlagsMask = out.outFlags ∧ out.outElen.toNat ≤ 64 ∧
      ∀ i, out.outElen.toNat ≤ i → Buf.get out.estrOut i = 0x00 := by
  cases h with
  | dec _ =>
    refine ⟨?_, hs.elen_le, hs.estr_tail⟩
    dsimp only
    cases s.cint.comp <;> decide
  | enc _ =>
    have hstr := hs.str_le
    have helen : (BitVec.ofNat 8 s.cint.s.length).toNat = s.cint.s.length := by
      rw [BitVec.toNat_ofNat]; omega
    refine ⟨hs.outFlags_reserved, ?_, fun i hi => ?_⟩
    · rwa [helen]
    · rw [helen] at hi
      rw [Buf.get_ofBytes, List.getD_eq_default _ _ hi, ite_self]

theorem FormatInv.turnEffect (hs : FormatInv s) (h : TurnEffect C s t) : FormatInv t := by
  cases h with
  | idle _ => exact hs
  | advance r trace hmove =>
    exact
      { ctrl_reserved := hs.ctrl_reserved
        outFlags_reserved := hs.outFlags_reserved
        str_le := hmove.str_le hs.str_le
        elen_le := hs.elen_le
        estr_tail := hs.estr_tail
        flag_eq := hmove.flag_eq hs.flag_eq }
  | fail e trace _ => exact formatInv_of_all_zero rfl rfl rfl
  | finish out hout =>
    obtain ⟨hflags, helen, htail⟩ := hs.lastOutput hout
    exact formatInv_of_zero rfl rfl hflags helen htail

theorem FormatInv.writeEffect {a : Addr} (hs : FormatInv s) (h : WriteEffect s a t) : FormatInv t := by
  cases h with
  | dropped => exact hs
  | start p _ hp =>
    exact
      { ctrl_reserved := hs.ctrl_reserved
        outFlags_reserved := by simp
        str_le := hs.str_le
        elen_le := by simp
        estr_tail := fun i _ => Buf.get_zero 64 i
        flag_eq := fun hmode => by obtain rfl | rfl := hp <;> cases hmode }
  | clr _ => exact formatInv_of_all_zero rfl rfl rfl
  | illegal _ => exact formatInv_of_all_zero rfl rfl rfl
  | store v => exact { hs with ctrl_reserved := write_ctrl_reserved s.cin v hs.ctrl_reserved }

/-- Settles O51: every turn, every host write and reset keep the formats. -/
theorem formatInvariantKept : Obligations.FormatInvariantKept := fun _ _ =>
  step_keeps (fun hs ⟨hin, hout, _, _, hint⟩ => hs.congr (congrArg _ hin) hout hint) FormatInv.turnEffect
    FormatInv.writeEffect fun _ => formatInv_of_all_zero rfl rfl rfl

/-- Settles O52. -/
theorem formatInvariantAtReset : Obligations.FormatInvariantAtReset := formatInv_of_all_zero rfl rfl rfl

/-- Settles O23: the lengths, codes and flags by evaluation, the buffers byte by byte. -/
theorem resetStateAllZero : Obligations.ResetStateAllZero := by
  unfold Obligations.ResetStateAllZero
  simp [ClassIn.zero, ClassOut.zero, ClassInt.zero, Buf.get_zero, Phase.code, Op.code]

end Sys2Proof.Machine
end

section
/-! SUPPORT. What the sequencer does with PHASE and class OUT, and when it stops (R20, R26, R40, R238, R273). -/

namespace Sys2Proof.Machine

variable {C : Capabilities} {s t : State}

/-- Settles O30: the outcomes of a turn, the failing one by its error. -/
theorem phaseMovesAlongTable : Obligations.PhaseMovesAlongTable := by
  intro C s t hagenda hrunning ht
  cases turnEffect_of_stepWith hagenda ht with
  | idle hidle => exact absurd hidle hrunning
  | advance r trace hmove =>
    obtain ⟨-, hpe, hpd, hnext, -, hcode⟩ := Phase.precedes_iff.mp hmove.next
    exact .inl ⟨hnext, hcode, hpe, hpd⟩
  | finish out hout => exact .inr (.inl ⟨rfl, rfl, rfl, hout.last⟩)
  | fail e trace hfail =>
    refine .inr (.inr ⟨rfl, rfl, ?_⟩)
    cases e with
    | capabilityUnavailable =>
      obtain ⟨hp, hcap⟩ := hfail
      exact .inl ⟨hp, hcap, rfl⟩
    | invalidKeyFormat =>
      obtain ⟨hp, hkey⟩ := hfail
      exact .inr (.inl ⟨hp, hkey, rfl⟩)
    | malformedCiphertext =>
      obtain ⟨hp, hbad⟩ | ⟨hp, hbad⟩ := hfail
      · exact .inr (.inr (.inl ⟨hp, hbad, rfl⟩))
      · exact .inr (.inr (.inr (.inl ⟨hp, hbad, rfl⟩)))
    | unsupportedMode =>
      obtain ⟨hp, hmode⟩ := hfail
      exact .inr (.inr (.inr (.inr (.inl ⟨hp, hmode, rfl⟩))))
    | wrongPassphrase =>
      obtain ⟨hp, hbad⟩ | ⟨hp, hbad⟩ := hfail
      · exact .inr (.inr (.inr (.inr (.inr (.inl ⟨hp, hbad, rfl⟩)))))
      · exact .inr (.inr (.inr (.inr (.inr (.inr ⟨hp, hbad, rfl⟩)))))
    | illegalCommand => exact hfail.elim

/-- A turn uses up one of the turns the command still needs, or all of them. -/
theorem TurnEffect.turnsLeft_le (h : TurnEffect C s t) : t.cint.phase.turnsLeft ≤ s.cint.phase.turnsLeft - 1 := by
  cases h with
  | idle hidle => simp [hidle]
  | advance r trace hmove => exact Nat.le_sub_one_of_lt (Phase.turnsLeft_of_precedes hmove.next).le
  | fail e trace _ => exact Nat.zero_le _
  | finish out _ => exact Nat.zero_le _

/-- The sequencer is in IDLE once it has had the turns its phase still needs, by induction on their number. -/
theorem iterate_turn_reaches_idle (n : Nat) (h : s.cint.phase.turnsLeft ≤ n) :
    ((turn C)^[n] s).cint.phase = .idle := by
  induction n generalizing s with
  | zero => exact Phase.turnsLeft_eq_zero.mp (Nat.le_zero.mp h)
  | succ n ih =>
    rw [Function.iterate_succ_apply]
    exact ih ((turn_effect C s).turnsLeft_le.trans (Nat.sub_le_of_le_add h))

/-- Settles O31: sixteen turns are enough from every phase. -/
theorem commandEndsWithinSixteen : Obligations.CommandEndsWithinSixteen :=
  fun C s hagenda =>
    ⟨16, (turn C)^[16] s, le_rfl, runWith_eq_iterate_turn 16 hagenda,
      iterate_turn_reaches_idle 16 s.cint.phase.turnsLeft_le⟩

/-- Settles O32: of the outcomes of a turn only the end of a command touches class OUT. -/
theorem outWrittenOnlyByLastPhase : Obligations.OutWrittenOnlyByLastPhase := by
  intro C s t hagenda ht
  refine ⟨fun hidle => ?_, ?_⟩
  · simpa [stepWith_eq_turn hagenda, turn_idle hidle, eq_comm] using ht
  · cases turnEffect_of_stepWith hagenda ht with
    | idle _ => exact .inl rfl
    | advance r trace _ => exact .inl rfl
    | fail e trace hfail => exact .inr (.inl ⟨hfail.running, rfl, rfl, rfl⟩)
    | finish out hout => exact .inr (.inr hout.last)

/-- Settles O58: the chip's step is a turn, and a turn in IDLE changes nothing. -/
theorem idleRetainsAllState : Obligations.IdleRetainsAllState := by
  intro s hidle
  refine ⟨fun hagenda => ?_, fun rest hagenda => ?_⟩
  · rw [← stepWith_attached, stepWith_eq_turn hagenda, turn_idle hidle]
  · rw [← stepWith_attached, stepWith_turn hagenda]
    exact congrArg _ (turn_idle (s := s.withAgenda rest) hidle)

end Sys2Proof.Machine
end

section
/-! SUPPORT. Host writes: what is stored is read back and nothing else changes, class OUT is out of the host's reach,
and while BUSY = 1 commands are dropped (R20, R63, R64, R66, R67). -/

namespace Sys2Proof.Machine

variable {s t : State}

/-- Settles O33: of the outcomes of a write only those of CMD touch class OUT. -/
theorem hostCannotWriteOut : Obligations.HostCannotWriteOut := by
  intro s t a v ht
  cases execWr_effect (show execWr a v s = .next t from ht) with
  | dropped => exact .inl rfl
  | start p ha _ => exact .inr ⟨ha, rfl⟩
  | clr ha => exact .inr ⟨ha, rfl⟩
  | illegal ha => exact .inr ⟨ha, rfl⟩
  | store v => exact .inl rfl

theorem execWr_busy (h : s.busy = true) (a : Addr) (v : Byte) : execWr a v s = .next s := by
  rw [execWr_eq, if_pos h]

/-- Settles O9. -/
theorem commandsIgnoredWhileBusy : Obligations.CommandsIgnoredWhileBusy := by
  intro s v hbusy
  refine ⟨?_, execWr_busy hbusy 0x000 v⟩
  rw [exec_decodeCommand, State.onCommand, if_pos hbusy]

/-! ### The bytes of class IN (R66, R67) -/

section Store

variable (cap : BitVec 9) (s : State) (v : Byte) {a : Addr}

/-- Overwriting the byte of address `a` in a buffer mapped from `lo` on shows at `a` and at no other address. -/
theorem get_put_mapped {n lo : Nat} (buf : Buf n) {b : Addr} (ha : lo ≤ a.toNat) (han : a.toNat < lo + n)
    (hb : lo ≤ b.toNat) :
    Buf.get (Buf.put buf (a.toNat - lo) v) (b.toNat - lo) = if b = a then v else Buf.get buf (b.toNat - lo) := by
  have hiff : (b.toNat - lo = a.toNat - lo ∧ a.toNat - lo < n) ↔ b = a := by
    rw [← BitVec.toNat_inj]; omega
  rw [Buf.get_put, if_congr hiff rfl rfl]

theorem mapByte_put_keyIn (ha : 0x020 ≤ a.toNat ∧ a.toNat ≤ 0x03F) (b : Addr) :
    State.mapByte cap { s with cin := { s.cin with keyIn := Buf.put s.cin.keyIn (a.toNat - 0x020) v } } b =
      if b = a then v else s.mapByte cap b := by
  by_cases hb : 0x020 ≤ b.toNat ∧ b.toNat ≤ 0x03F
  · rw [mapByte_keyIn cap _ hb, mapByte_keyIn cap _ hb]
    rw [get_put_mapped v s.cin.keyIn ha.1 (by omega) hb.1]
  · rw [if_neg (by rintro rfl; exact hb ha)]
    simp only [State.mapByte, hb, if_false]

theorem mapByte_put_estrIn (ha : 0x080 ≤ a.toNat ∧ a.toNat ≤ 0x0BF) (b : Addr) :
    State.mapByte cap { s with cin := { s.cin with estrIn := Buf.put s.cin.estrIn (a.toNat - 0x080) v } } b =
      if b = a then v else s.mapByte cap b := by
  by_cases hb : 0x080 ≤ b.toNat ∧ b.toNat ≤ 0x0BF
  · rw [mapByte_estrIn cap _ hb, mapByte_estrIn cap _ hb]
    rw [get_put_mapped v s.cin.estrIn ha.1 (by omega) hb.1]
  · rw [if_neg (by rintro rfl; exact hb ha)]
    simp only [State.mapByte, hb, if_false]

theorem mapByte_put_pass (ha : 0x100 ≤ a.toNat ∧ a.toNat ≤ 0x1FE) (b : Addr) :
    State.mapByte cap { s with cin := { s.cin with pass := Buf.put s.cin.pass (a.toNat - 0x100) v } } b =
      if b = a then v else s.mapByte cap b := by
  by_cases hb : 0x100 ≤ b.toNat ∧ b.toNat ≤ 0x1FE
  · rw [mapByte_pass cap _ hb, mapByte_pass cap _ hb]
    rw [get_put_mapped v s.cin.pass ha.1 (by omega) hb.1]
  · rw [if_neg (by rintro rfl; exact hb ha)]
    simp only [State.mapByte, hb, if_false]

theorem addr_eq_iff {b : Addr} {n : Nat} (ha : a.toNat = n) : b = a ↔ b.toNat = n := by
  rw [← ha, BitVec.toNat_inj]

/-- CTRL, of which bit 0 alone is kept (R23). -/
theorem mapByte_set_ctrl (ha : a.toNat = 0x003) (b : Addr) :
    State.mapByte cap { s with cin := { s.cin with ctrl := v &&& ctrlMask } } b =
      if b = a then v &&& ctrlMask else s.mapByte cap b := by
  by_cases hb : b.toNat = 0x003 <;> simp [State.mapByte, addr_eq_iff ha, hb, BitVec.and_assoc]

theorem mapByte_set_plen (ha : a.toNat = 0x004) (b : Addr) :
    State.mapByte cap { s with cin := { s.cin with plen := v } } b = if b = a then v else s.mapByte cap b := by
  by_cases hb : b.toNat = 0x004 <;> simp [State.mapByte, addr_eq_iff ha, hb]

theorem mapByte_set_elenIn (ha : a.toNat = 0x005) (b : Addr) :
    State.mapByte cap { s with cin := { s.cin with elenIn := v } } b = if b = a then v else s.mapByte cap b := by
  by_cases hb : b.toNat = 0x005 <;> simp [State.mapByte, addr_eq_iff ha, hb]

theorem keptByte_ctrl (h : a.toNat = 0x003) : keptByte a v = v &&& ctrlMask :=
  if_pos (BitVec.eq_of_toNat_eq h)

theorem keptByte_of_toNat_ne (h : a.toNat ≠ 0x003) : keptByte a v = v :=
  if_neg fun ha => h (by rw [ha]; rfl)

/-- After a class-IN write the map shows the byte kept at its address and what it showed before everywhere else. -/
theorem mapByte_writeIn (ha : isClassIn a = true) (b : Addr) :
    (s.writeIn a v).mapByte cap b = if b = a then keptByte a v else s.mapByte cap b := by
  unfold State.writeIn
  obtain h | h | h | h | h | h := classIn_cases ha
  · rw [write_ctrl _ _ h, keptByte_ctrl v h, mapByte_set_ctrl cap s v h]
  · rw [write_plen _ _ h, keptByte_of_toNat_ne v (by omega), mapByte_set_plen cap s v h]
  · rw [write_elenIn _ _ h, keptByte_of_toNat_ne v (by omega), mapByte_set_elenIn cap s v h]
  · rw [write_keyIn _ _ h, keptByte_of_toNat_ne v (by omega), mapByte_put_keyIn cap s v h]
  · rw [write_estrIn _ _ h, keptByte_of_toNat_ne v (by omega), mapByte_put_estrIn cap s v h]
  · rw [write_pass _ _ h, keptByte_of_toNat_ne v (by omega), mapByte_put_pass cap s v h]

end Store

/-- Settles O12. -/
theorem writeStoresClassInByte : Obligations.WriteStoresClassInByte := by
  intro s a v hbusy ha
  have hcmd : a ≠ 0x000 := by rintro rfl; cases ha
  refine ⟨s.cin.write a v, ?_, fun b => ?_⟩
  · exact (execWr_eq a v s).trans (by rw [if_neg (by simp [hbusy]), if_neg hcmd]; rfl)
  · exact (memRead_idle (s := s.writeIn a v) hbusy b).trans (by
      rw [mapByte_writeIn _ _ _ ha, memRead_idle hbusy]; rfl)

end Sys2Proof.Machine
end

section
/-! SUPPORT. The decoder inverts the encoder: the rows of the command byte exclude one another, and every port request
and host access gives its fields back (R61, R90, R101, R102). -/

namespace Sys2Proof

/-! ### The rows of the command byte (R90) -/

section Rows

variable {mask pattern v : Byte}

/-- A byte matches no row whose pattern differs from its own row's on a bit that both masks fix. -/
theorem rowMatches_disjoint {mask' pattern' : Byte} (h : rowMatches mask pattern v = true)
    (hdiff : pattern &&& mask' ≠ pattern' &&& mask) : ¬ rowMatches mask' pattern' v = true := by
  intro h'
  refine hdiff ?_
  have hrow : v &&& mask = pattern := by simpa [rowMatches] using h
  have hrow' : v &&& mask' = pattern' := by simpa [rowMatches] using h'
  rw [← hrow, ← hrow', BitVec.and_assoc, BitVec.and_assoc, BitVec.and_comm mask mask']

theorem ne_of_rowMatches {b : Byte} (h : rowMatches mask pattern v = true) (hb : b &&& mask ≠ pattern) : v ≠ b := by
  rintro rfl
  exact hb (by simpa [rowMatches] using h)

/-- A byte of a row that leaves out the four bytes 0x00 to 0x03 is decoded by the masks of the ILLEGAL rows. -/
theorem decodeCommand_of_rowMatches (h : rowMatches mask pattern v = true)
    (hfour : ∀ b ∈ [0x00, 0x01, 0x02, (0x03 : Byte)], b &&& mask ≠ pattern) :
    decodeCommand v =
      if rowMatches 0xFC 0x04 v then .illegal04 v
      else if rowMatches 0xF8 0x08 v then .illegal08 v
      else if rowMatches 0xF0 0x10 v then .illegal10 v
      else if rowMatches 0xE0 0x20 v then .illegal20 v
      else if rowMatches 0xC0 0x40 v then .illegal40 v
      else .illegal80 v := by
  have hne : ∀ b ∈ [0x00, 0x01, 0x02, (0x03 : Byte)], v ≠ b := fun b hb => ne_of_rowMatches h (hfour b hb)
  unfold decodeCommand
  rw [if_neg (hne 0x01 (by simp)), if_neg (hne 0x02 (by simp)), if_neg (hne 0x03 (by simp)),
    if_neg (hne 0x00 (by simp))]

theorem decodeCommand_illegal04 (h : rowMatches 0xFC 0x04 v = true) : decodeCommand v = .illegal04 v := by
  rw [decodeCommand_of_rowMatches h (by decide), if_pos h]

theorem decodeCommand_illegal08 (h : rowMatches 0xF8 0x08 v = true) : decodeCommand v = .illegal08 v := by
  rw [decodeCommand_of_rowMatches h (by decide)]
  repeat rw [if_neg (rowMatches_disjoint h (by decide))]
  rw [if_pos h]

theorem decodeCommand_illegal10 (h : rowMatches 0xF0 0x10 v = true) : decodeCommand v = .illegal10 v := by
  rw [decodeCommand_of_rowMatches h (by decide)]
  repeat rw [if_neg (rowMatches_disjoint h (by decide))]
  rw [if_pos h]

theorem decodeCommand_illegal20 (h : rowMatches 0xE0 0x20 v = true) : decodeCommand v = .illegal20 v := by
  rw [decodeCommand_of_rowMatches h (by decide)]
  repeat rw [if_neg (rowMatches_disjoint h (by decide))]
  rw [if_pos h]

theorem decodeCommand_illegal40 (h : rowMatches 0xC0 0x40 v = true) : decodeCommand v = .illegal40 v := by
  rw [decodeCommand_of_rowMatches h (by decide)]
  repeat rw [if_neg (rowMatches_disjoint h (by decide))]
  rw [if_pos h]

theorem decodeCommand_illegal80 (h : rowMatches 0x80 0x80 v = true) : decodeCommand v = .illegal80 v := by
  rw [decodeCommand_of_rowMatches h (by decide)]
  repeat rw [if_neg (rowMatches_disjoint h (by decide))]

end Rows

/-! ### The three formats -/

/-- Settles O1, row by row: the ILLEGAL rows exclude one another, the request fields have the lengths R102 gives, and
the fields of a host access do not overlap. -/
theorem decodeEncodeRoundTrip : Obligations.DecodeEncodeRoundTrip := by
  intro i hwf
  cases i with
  | enc | dec | clr | illegal00 => rfl
  | illegal04 v => exact congrArg Except.ok (decodeCommand_illegal04 hwf)
  | illegal08 v => exact congrArg Except.ok (decodeCommand_illegal08 hwf)
  | illegal10 v => exact congrArg Except.ok (decodeCommand_illegal10 hwf)
  | illegal20 v => exact congrArg Except.ok (decodeCommand_illegal20 hwf)
  | illegal40 v => exact congrArg Except.ok (decodeCommand_illegal40 hwf)
  | illegal80 v => exact congrArg Except.ok (decodeCommand_illegal80 hwf)
  | aesEnc key block => exact decodePort_aesEnc key block
  | aesDec key block => exact decodePort_aesDec key block
  | sha256d msg => exact decodePort_sha256d msg
  | scrypt password salt => exact decodePort_scrypt password salt
  | nfc8 text => exact decodePort_nfc8 (of_decide_eq_true hwf)
  | ecpub priv => exact decodePort_ecpub priv
  | eccomp pub => exact decodePort_eccomp pub
  | address pub => exact decodePort_address pub
  | b58enc blob => exact decodePort_b58enc blob
  | b58dec43 str => exact decodePort_b58dec43 (of_decide_eq_true hwf)
  | wr a v => exact congrArg Except.ok (decodeAccess_write a v)
  | rd a => exact congrArg Except.ok (decodeAccess_read a 0)

/-- Settles O3: each of the nine words is the encoding of its instruction. -/
theorem rowWordsDecode : Obligations.RowWordsDecode :=
  ⟨decodeEncodeRoundTrip .enc rfl, decodeEncodeRoundTrip .dec rfl, decodeEncodeRoundTrip .clr rfl,
    decodeEncodeRoundTrip .illegal00 rfl, decodeEncodeRoundTrip (.illegal40 0x7F) rfl,
    decodeEncodeRoundTrip (.sha256d [0x61, 0x62, 0x63]) rfl, decodeEncodeRoundTrip (.b58dec43 [0x36, 0x50]) rfl,
    decodeEncodeRoundTrip (.wr 0x020 0xCB) rfl, decodeEncodeRoundTrip (.rd 0x001) rfl⟩

end Sys2Proof
end

section
/-! SUPPORT. Host accesses as instructions and as steps: a write to CMD is its command, a read shows the address map
and changes no register, and nothing the host does while BUSY = 1 reaches the block (R62 to R66, R75, R91). -/

namespace Sys2Proof.Machine

variable {C : Capabilities} {s t : State}

/-! ### Writes (R63, R64, R65, R91) -/

/-- Settles O10: both are the command's effect, dropped while BUSY = 1. -/
theorem cmdWriteRunsCommand : Obligations.CmdWriteRunsCommand := by
  intro s v
  rw [exec_decodeCommand, State.onCommand]
  refine (execWr_eq 0x000 v s).trans ?_
  rw [if_pos rfl, apply_ite Host.Outcome.next]

/-- Settles O13. -/
theorem writeElsewhereIgnored : Obligations.WriteElsewhereIgnored := by
  intro s a v hbusy hcmd hclass
  refine (execWr_eq a v s).trans ?_
  rw [if_neg (by simp [hbusy]), if_neg hcmd, State.writeIn, write_of_not_classIn hclass]

/-- Settles O14. -/
theorem writeIgnoredWhileBusy : Obligations.WriteIgnoredWhileBusy :=
  fun _ a v hbusy => execWr_busy hbusy a v

theorem withAgenda_expecting (s : State) (e : HostEvent) : (s.expecting e).withAgenda s.host.agenda = s := rfl

/-- Settles O11: the byte placed is a host write to CMD, which does what the command does. -/
theorem placedCommandIsRun : Obligations.PlacedCommandIsRun := by
  intro s v
  have hplaced : s.withFetchWord 8 v.toNat = s.expecting (.access (accessWord 1 0x000 v)) := by
    simp [State.withFetchWord, State.placeWord]
  have hdecode : decode (.hostacc (accessWord 1 0x000 v)) = .ok (.wr 0x000 v) :=
    decodeEncodeRoundTrip (.wr 0x000 v) rfl
  calc step (s.withFetchWord 8 v.toNat)
      = step (s.expecting (.access (accessWord 1 0x000 v))) := by rw [hplaced]
    _ = exec (.wr 0x000 v) s := by
        rw [step_of_agenda_access rfl, runWord_of_decode hdecode, withAgenda_expecting]
    _ = exec (decodeCommand v) s := cmdWriteRunsCommand s v

/-! ### Reads (R62, R64, R65, R66) -/

/-- A read returns the byte of the host's read view. -/
theorem readReturns_of_memRead {a : Addr} {b : Byte} (h : s.memRead Config.cap a = b) : readReturns s a b := by
  subst h
  rfl

theorem readReturns_of_mapByte {a : Addr} {b : Byte} (hbusy : s.busy = false) (h : s.mapByte Config.cap a = b) :
    readReturns s a b :=
  readReturns_of_memRead ((memRead_idle hbusy a).trans h)

/-- Settles O16. -/
theorem readMaskedWhileBusy : Obligations.ReadMaskedWhileBusy :=
  fun _ a hbusy => readReturns_of_memRead (memRead_busy hbusy a)

/-- Settles O46: both states show the host the same bytes. -/
theorem sequencerHiddenFromHost : Obligations.SequencerHiddenFromHost :=
  fun s _ a => ⟨s.memRead Config.cap a, readReturns_of_memRead rfl,
    readReturns_of_memRead (memRead_congr rfl rfl rfl rfl a)⟩

/-- The reserved addresses, named by their numbers (R65). -/
theorem mapByte_reserved_ofNat (cap : BitVec 9) (s : State) {n : Nat}
    (h : (0x00A ≤ n ∧ n ≤ 0x01F) ∨ (0x060 ≤ n ∧ n ≤ 0x07F)) : s.mapByte cap (BitVec.ofNat 9 n) = 0x00 :=
  mapByte_reserved cap s (by rw [toNat_addr (by omega)]; omega)

/-- Byte `i` of a buffer that is mapped from address `lo` on. -/
theorem get_mapped {n lo : Nat} (buf : Buf n) (i : Fin n) (h : lo + n ≤ 512) :
    Buf.get buf ((BitVec.ofNat 9 (lo + i.val)).toNat - lo) = buf[i] := by
  rw [toNat_addr (by omega), Nat.add_sub_cancel_left, Buf.get_eq_getElem buf i.isLt]
  rfl

/-- Address `lo + i` lies in the range from `lo` to `hi`. -/
theorem toNat_mapped {n lo hi : Nat} (i : Fin n) (hlast : lo + n = hi + 1) (h : hi < 512) :
    lo ≤ (BitVec.ofNat 9 (lo + i.val)).toNat ∧ (BitVec.ofNat 9 (lo + i.val)).toNat ≤ hi := by
  rw [toNat_addr (by omega)]
  omega

/-- Settles O15, one clause for each range of the address map. -/
theorem readReturnsMappedByte : Obligations.ReadReturnsMappedByte := by
  intro s hbusy
  have mapped {a : Addr} {b : Byte} : s.mapByte Config.cap a = b → readReturns s a b := readReturns_of_mapByte hbusy
  refine ⟨mapped (mapByte_reserved _ s (by decide)), mapped rfl, mapped rfl, mapped rfl, mapped rfl, mapped rfl,
    mapped rfl, mapped rfl, mapped rfl, mapped (capHi_eq Config.cap), fun n hlo hhi => ?gapLow, fun i => ?keyIn,
    fun i => ?keyOut, fun n hlo hhi => ?gapHigh, fun i => ?estrIn, fun i => ?estrOut, fun i => ?pass,
    mapped (mapByte_reserved _ s (by decide))⟩
  case gapLow => exact mapped (mapByte_reserved_ofNat _ s (.inl ⟨hlo, hhi⟩))
  case gapHigh => exact mapped (mapByte_reserved_ofNat _ s (.inr ⟨hlo, hhi⟩))
  case keyIn => exact mapped ((mapByte_keyIn _ s (toNat_mapped i rfl (by decide))).trans (get_mapped _ i (by decide)))
  case keyOut => exact mapped ((mapByte_keyOut _ s (toNat_mapped i rfl (by decide))).trans (get_mapped _ i (by decide)))
  case estrIn => exact mapped ((mapByte_estrIn _ s (toNat_mapped i rfl (by decide))).trans (get_mapped _ i (by decide)))
  case estrOut =>
    exact mapped ((mapByte_estrOut _ s (toNat_mapped i rfl (by decide))).trans (get_mapped _ i (by decide)))
  case pass => exact mapped ((mapByte_pass _ s (toNat_mapped i rfl (by decide))).trans (get_mapped _ i (by decide)))

/-! ### What the host sees of a port request or a read (R62, R120) -/

/-- An instruction a port answers is a port request. -/
theorem encode_of_portAnswer {i : Instr} (h : portAnswer C i ≠ none) : ∃ w, encode i = .portsel w := by
  cases i
  case aesEnc | aesDec | sha256d | scrypt | nfc8 | ecpub | eccomp | address | b58enc | b58dec43 => exact ⟨_, rfl⟩
  all_goals exact absurd rfl h

/-- Settles O19: a port request leaves its answer in hand and a trace entry, a read a byte with the host. -/
theorem portsAndReadsKeepHostView : Obligations.PortsAndReadsKeepHostView := by
  intro i s t hi ht
  obtain hport | ⟨a, rfl⟩ := hi
  · obtain ⟨w, hw⟩ := encode_of_portAnswer hport
    obtain ⟨r, -, hexec⟩ := execWith_portsel hw Config.attached s
    rw [execWith_attached, ht] at hexec
    cases hexec
    exact ⟨memRead_congr rfl rfl rfl rfl, rfl, rfl, rfl, rfl, rfl⟩
  · cases ht
    exact ⟨memRead_congr rfl rfl rfl rfl, rfl, rfl, rfl, rfl, rfl⟩

/-! ### Steps -/

/-- Settles O21. -/
theorem stepNeverStops : Obligations.StepNeverStops := fun s => by
  rw [← stepWith_attached]
  exact stepWith_next Config.attached s

/-- The byte a host access returns while BUSY = 1, if it is a read (R62, R64). -/
def busyRead (status : Byte) (w : BitVec 18) : Option Byte :=
  match decodeAccess w with
  | .rd a => some (if a = 0x001 then status &&& statusMask else 0x00)
  | _ => none

/-- The state with the agenda `rest` and `bytes` more in the host's hands. -/
def State.heard (s : State) (rest : List HostEvent) (bytes : List Byte) : State :=
  { s with host := { agenda := rest, reads := s.host.reads ++ bytes } }

theorem State.heard_heard (s : State) (rest rest' : List HostEvent) (bytes bytes' : List Byte) :
    (s.heard rest bytes).heard rest' bytes' = s.heard rest' (bytes ++ bytes') := by
  simp [State.heard]

/-- A host access while BUSY = 1 hands the host at most a byte and leaves the block alone. -/
theorem stepWith_access_busy {w : BitVec 18} {rest : List HostEvent} (hbusy : s.busy = true)
    (hagenda : s.host.agenda = .access w :: rest) :
    stepWith C s = .next (s.heard rest (busyRead s.status w).toList) := by
  rw [stepWith_access hagenda]
  have hbusy' : (s.withAgenda rest).busy = true := hbusy
  obtain ⟨a, v, hw, hx⟩ | ⟨a, hr, hx⟩ := execWith_access C w (s.withAgenda rest)
  · rw [hx, execWr_busy hbusy']
    simp [busyRead, hw, State.heard, State.withAgenda]
  · rw [hx, memRead_busy hbusy']
    simp [busyRead, hr, State.heard, State.returned, State.withAgenda]

/-- A series of host accesses while BUSY = 1, by induction on the series. -/
theorem runWith_accesses_busy (C : Capabilities) (l : List (BitVec 18)) (hbusy : s.busy = true)
    (hagenda : s.host.agenda = l.map .access) :
    runWith C l.length s = .next (s.heard [] (l.filterMap (busyRead s.status))) := by
  induction l generalizing s with
  | nil =>
    have hs : s.heard [] [] = s := by
      rw [State.heard, List.append_nil, ← show s.host.agenda = [] from hagenda]
    rw [List.filterMap_nil, hs]
    rfl
  | cons w l ih =>
    have hstep : stepWith C s = .next (s.heard (l.map .access) (busyRead s.status w).toList) :=
      stepWith_access_busy hbusy hagenda
    rw [List.length_cons, runWith_succ hstep, ih (s := s.heard _ _) hbusy rfl, State.heard_heard]
    congr 2
    cases h : busyRead s.status w <;> simp [State.heard, h]

/-- Settles O45. -/
theorem busyAccessesLeaveBlock : Obligations.BusyAccessesLeaveBlock :=
  fun C _ l hbusy hagenda =>
    ⟨_, runWith_accesses_busy C l hbusy hagenda, ⟨rfl, rfl, rfl, rfl, rfl⟩, rfl, rfl⟩

end Sys2Proof.Machine
end

section
/-! SUPPORT. Both sides of the encodings: every command byte belongs to a row of R90, every selector outside the ten of
R101 is refused, and the selectors in the port trace of a whole command are those of its requests (R160, R190). -/

namespace Sys2Proof

/-! ### The command byte (R90) -/

/-- The rows of R90 leave out no byte. -/
theorem commandByte_rows (v : Byte) :
    v = 0x01 ∨ v = 0x02 ∨ v = 0x03 ∨ v = 0x00 ∨ rowMatches 0xFC 0x04 v = true ∨ rowMatches 0xF8 0x08 v = true ∨
      rowMatches 0xF0 0x10 v = true ∨ rowMatches 0xE0 0x20 v = true ∨ rowMatches 0xC0 0x40 v = true ∨
      rowMatches 0x80 0x80 v = true := by
  revert v
  decide

/-- Settles O2, row by row: a byte decodes to its own row's instruction. -/
theorem commandByteDecodeTotal : Obligations.CommandByteDecodeTotal := by
  intro v
  obtain rfl | rfl | rfl | rfl | h | h | h | h | h | h := commandByte_rows v
  case inl | inr.inl | inr.inr.inl | inr.inr.inr.inl => exact ⟨rfl, rfl⟩
  · rw [decodeCommand_illegal04 h]; exact ⟨h, rfl⟩
  · rw [decodeCommand_illegal08 h]; exact ⟨h, rfl⟩
  · rw [decodeCommand_illegal10 h]; exact ⟨h, rfl⟩
  · rw [decodeCommand_illegal20 h]; exact ⟨h, rfl⟩
  · rw [decodeCommand_illegal40 h]; exact ⟨h, rfl⟩
  · rw [decodeCommand_illegal80 h]; exact ⟨h, rfl⟩

/-! ### The port selector (R93, R101) -/

/-- Each arm of the port decoder but the last is for one of the ten numbers, and the last refuses every other. -/
theorem decodePort_of_reserved {w : PortWord}
    (h : w.selector.toNat ∉
      [0b00000, 0b00001, 0b00010, 0b00100, 0b00110, 0b01000, 0b01010, 0b01100, 0b01110, 0b10000]) :
    decodePort w = .error (.reservedSelector w.selector) := by
  unfold decodePort
  split
  case h_11 => exact if_neg h
  all_goals
    rename_i hsel _
    rw [hsel] at h
    exact absurd (by decide) h

/-- Settles O4: a selector that is none of the ten has none of their numbers. -/
theorem reservedSelectorsRefused : Obligations.ReservedSelectorsRefused :=
  fun _ _ hsel => decodePort_of_reserved fun hmem =>
    hsel ((List.mem_map_of_injective fun _ _ => BitVec.eq_of_toNat_eq).mp hmem)

namespace Machine

variable {C : Capabilities} {s : State}

/-! ### The start and the end of a command (R91, R263) -/

theorem onCommand_idle (h : s.busy = false) (effect : State → State) : s.onCommand effect = .next (effect s) :=
  if_neg (by simp [h])

/-- Settles O5. -/
theorem encStartsSequencer : Obligations.EncStartsSequencer := fun _ hbusy =>
  onCommand_idle hbusy fun s => s.begin .enc .eStart

/-- Settles O6. -/
theorem decStartsSequencer : Obligations.DecStartsSequencer := fun _ hbusy =>
  onCommand_idle hbusy fun s => s.begin .dec .dStart

/-- Settles O25: the record of the six fields `complete` sets or keeps. -/
theorem completionClearsOperands : Obligations.CompletionClearsOperands := fun _ => rfl

/-! ### The selectors of a series of requests (R101, R120) -/

/-- The selector of a port request, alone in its list; none for an instruction that is no port request. -/
def selectorOf (i : Instr) : List Selector :=
  match encode i with
  | .portsel w => [w.selector]
  | _ => []

/-- The trace entry of an instruction has the selector of its encoding. -/
theorem selectors_eventOf (C : Capabilities) (i : Instr) :
    (eventOf C i).map (fun e => e.request.selector) = selectorOf i := by
  cases i <;> rfl

/-- The port trace of a series of requests shows their selectors in order. -/
theorem selectors_events (C : Capabilities) (requests : List Instr) :
    (events C requests).map (fun e => e.request.selector) = requests.flatMap selectorOf := by
  rw [events, List.map_flatMap]
  exact congrArg (fun f => requests.flatMap f) (funext (selectors_eventOf C))

theorem selectors_compRequests (comp : Bool) (pub : Bytes) :
    (compRequests comp pub).flatMap selectorOf = if comp then [0b01010] else [] := by
  cases comp <;> rfl

/-! ### ENC (R160) -/

theorem selectors_encPubRequests (key : Buf 32) (comp : Bool) (pass pub : Bytes) :
    (encPubRequests C key comp pass pub).flatMap selectorOf =
      (if comp then [0b01010] else []) ++ [0b01100, 0b00010, 0b00100, 0b00000, 0b00000, 0b00010, 0b01110] := by
  simp only [encPubRequests, List.flatMap_append, selectors_compRequests]
  rfl

/-- The requests of ENC ask the ports R160 lists. -/
theorem selectors_encRequests (key : Buf 32) (comp : Bool) (pass : Bytes) :
    (encRequests C key comp pass).flatMap selectorOf = encSelectors C key comp := by
  unfold encRequests encSelectors
  by_cases hcap : C.cap = Config.capAll
  case neg => simp [hcap]
  cases C.ecpub key with
  | none => simp [hcap, selectorOf, encode]
  | some pub => simp [hcap, selectors_encPubRequests, selectorOf, encode]

/-- Settles O35: the run ends with the result of the one function, having made exactly its requests. -/
theorem encRunsItsFunction : Obligations.EncRunsItsFunction := fun C _ h =>
  ⟨_, runWith_enc_outcome C h, (selectors_events C _).trans (selectors_encRequests _ _ _)⟩

/-! ### DEC (R190) -/

theorem selectors_verifyRequests_invalid {key : Buf 32} (h : C.ecpub key = none) (comp : Bool) :
    (verifyRequests C key comp).flatMap selectorOf = [0b01000] := by
  rw [verifyRequests, h]
  rfl

theorem selectors_verifyRequests_valid {key : Buf 32} {pub : Bytes} (h : C.ecpub key = some pub) (comp : Bool) :
    (verifyRequests C key comp).flatMap selectorOf =
      [0b01000] ++ (if comp then [0b01010] else []) ++ [0b01100, 0b00010] := by
  simp only [verifyRequests, h, List.flatMap_cons, List.flatMap_append, selectors_compRequests, List.append_assoc]
  rfl

/-- The requests of D_SPLIT to D_VERIFY ask the ports R190 lists after the checks. -/
theorem selectors_decKeyRequests (blob : Buf 43) (pass : Bytes) (comp : Bool) :
    (decKeyRequests C blob pass comp).flatMap selectorOf =
      [0b00110, 0b00100, 0b00001, 0b00001] ++
        (verifyRequests C (candidateKey C blob pass) comp).flatMap selectorOf :=
  List.flatMap_append

/-- From the checksum on, the requests of DEC ask the ports R190 lists: SHA256D alone unless all checks pass. -/
theorem selectors_decBlobRequests (blob : Buf 43) (pass : Bytes) :
    (decBlobRequests C blob pass).flatMap selectorOf = decBlobSelectors C blob pass := by
  unfold decBlobRequests decBlobSelectors
  by_cases hcsum : csum4 C (blobBody blob) = blobCsum blob
  case neg => simp [hcsum, selectorOf, encode]
  cases hversion : versionOk blob
  case false => simp [hcsum, selectorOf, encode]
  cases hflag : compOfFlag (blobFlag blob) with
  | none => simp [hcsum, selectorOf, encode]
  | some comp =>
    cases hkey : C.ecpub (candidateKey C blob pass) with
    | none =>
      simp [hcsum, selectors_decKeyRequests, selectors_verifyRequests_invalid hkey, selectorOf, encode]
    | some pub =>
      simp [hcsum, selectors_decKeyRequests, selectors_verifyRequests_valid hkey, selectorOf, encode]

/-- The requests of DEC ask the ports R190 lists. -/
theorem selectors_decRequests (elen : Nat) (str pass : Bytes) :
    (decRequests C elen str pass).flatMap selectorOf = decSelectors C elen str pass := by
  unfold decRequests decSelectors
  by_cases hcap : C.cap = Config.capAll
  case neg => simp [hcap]
  by_cases helen : 64 < elen
  case pos => simp [hcap, helen]
  cases base58Decode C str with
  | none => simp [hcap, helen, selectorOf, encode]
  | some blob => simp [hcap, helen, selectors_decBlobRequests, selectorOf, encode]

/-- Settles O36: the run ends with the result of the one function, having made exactly its requests. -/
theorem decRunsItsFunction : Obligations.DecRunsItsFunction := fun C _ h =>
  ⟨_, runWith_dec_outcome C h, (selectors_events C _).trans (selectors_decRequests _ _ _)⟩

end Machine
end Sys2Proof
end

section
/-! SUPPORT. The coordinator's own operators (R140 to R144): the laws of XOR16, and where FRAME39 and the checksum put
each field of a BLOB. -/

namespace Sys2Proof

/-! ### Slices of a buffer filled from a byte string (R9) -/

/-- A slice of a filled buffer is filled from the rest of the string. -/
theorem Buf.slice_ofBytes {n off len : Nat} (h : off + len ≤ n) (l : Bytes) :
    Buf.slice (Buf.ofBytes n l) off len = Buf.ofBytes len (l.drop off) := by
  refine Buf.ext_get fun i hi => ?_
  rw [Buf.get_slice, if_pos hi, Buf.get_ofBytes, if_pos (by omega), Buf.get_ofBytes, if_pos hi]
  simp [List.getD]

/-- A buffer takes no more of a string than its own length. -/
theorem Buf.ofBytes_bytes_append {n : Nat} (v : Buf n) (l : Bytes) : Buf.ofBytes n (Buf.bytes v ++ l) = v := by
  refine Buf.ext_get fun i hi => ?_
  rw [Buf.get_ofBytes, if_pos hi, List.getD_append _ _ _ _ (by simpa), Buf.getD_bytes]

/-- A slice shows the bytes of the buffer from its offset on. -/
theorem Buf.getElem_of_slice_eq {n off len : Nat} {v : Buf n} {w : Buf len} (h : Buf.slice v off len = w) (i : Fin len)
    (hi : off + i.val < n) : v[off + i.val] = w[i] := by
  subst h
  simp [Buf.slice, Buf.get_eq_getElem v hi]

namespace Machine

/-! ### XOR16 (R140) -/

theorem xor16_comm (a b : Buf 16) : xor16 a b = xor16 b a :=
  Buf.ext_get fun i hi => by simp [get_xor16, hi, BitVec.xor_comm]

theorem xor16_assoc (a b c : Buf 16) : xor16 (xor16 a b) c = xor16 a (xor16 b c) :=
  Buf.ext_get fun i hi => by simp [get_xor16, hi, BitVec.xor_assoc]

@[simp] theorem xor16_zero (a : Buf 16) : xor16 a (Buf.zero 16) = a :=
  Buf.ext_get fun i hi => by simp [get_xor16, hi, Buf.get_zero]

@[simp] theorem xor16_self (a : Buf 16) : xor16 a a = Buf.zero 16 :=
  Buf.ext_get fun i hi => by simp [get_xor16, hi, Buf.get_zero]

/-- A mask laid over a block twice is taken off again. -/
@[simp] theorem xor16_xor16_cancel (a b : Buf 16) : xor16 (xor16 a b) b = a := by
  rw [xor16_assoc, xor16_self, xor16_zero]

/-- Settles O55. -/
theorem xorOperatorLaws : Obligations.XorOperatorLaws := fun a b =>
  ⟨fun i => by simp [xor16], xor16_comm a b, xor16_xor16_cancel a b, xor16_zero a, xor16_self a⟩

/-! ### FRAME39 (R142) -/

section Frame

variable (flag : Byte) (salt : Buf 4) (eh1 eh2 : Buf 16)

theorem get_frame39_version0 : Buf.get (frame39 flag salt eh1 eh2) 0 = version0 := by
  simp [frame39, Buf.get_ofBytes]

theorem get_frame39_version1 : Buf.get (frame39 flag salt eh1 eh2) 1 = version1 := by
  simp [frame39, Buf.get_ofBytes]

theorem get_frame39_flag : Buf.get (frame39 flag salt eh1 eh2) 2 = flag := by
  simp [frame39, Buf.get_ofBytes]

theorem slice_frame39_salt : Buf.slice (frame39 flag salt eh1 eh2) 3 4 = salt := by
  rw [frame39, Buf.slice_ofBytes (by omega)]
  simp [Buf.ofBytes_bytes_append]

theorem slice_frame39_eh1 : Buf.slice (frame39 flag salt eh1 eh2) 7 16 = eh1 := by
  rw [frame39, Buf.slice_ofBytes (by omega)]
  simp [Buf.ofBytes_bytes_append]

theorem slice_frame39_eh2 : Buf.slice (frame39 flag salt eh1 eh2) 23 16 = eh2 := by
  rw [frame39, Buf.slice_ofBytes (by omega), List.drop_left' (by simp), Buf.ofBytes_bytes]

end Frame

/-- Settles O56, field by field. -/
theorem frameLayout : Obligations.FrameLayout := fun flag salt eh1 eh2 =>
  ⟨(Buf.get_eq_getElem _ (by omega)).symm.trans (get_frame39_version0 flag salt eh1 eh2),
    (Buf.get_eq_getElem _ (by omega)).symm.trans (get_frame39_version1 flag salt eh1 eh2),
    (Buf.get_eq_getElem _ (by omega)).symm.trans (get_frame39_flag flag salt eh1 eh2),
    fun i => Buf.getElem_of_slice_eq (slice_frame39_salt flag salt eh1 eh2) i (by omega),
    fun i => Buf.getElem_of_slice_eq (slice_frame39_eh1 flag salt eh1 eh2) i (by omega),
    fun i => Buf.getElem_of_slice_eq (slice_frame39_eh2 flag salt eh1 eh2) i (by omega)⟩

/-! ### BODY and checksum (R97), DEFRAME43 (R144) -/

theorem get_blobOf (body : Buf 39) (csum : Buf 4) {i : Nat} (h : i < 39) :
    Buf.get (blobOf body csum) i = Buf.get body i := by
  rw [blobOf, Buf.get_ofBytes, if_pos (by omega), List.getD_append _ _ _ _ (by simpa), Buf.getD_bytes]

/-- A field of BODY stands in the BLOB at the same offset. -/
theorem slice_blobOf (body : Buf 39) (csum : Buf 4) {off len : Nat} (h : off + len ≤ 39) :
    Buf.slice (blobOf body csum) off len = Buf.slice body off len := by
  refine Buf.ext_get fun i hi => ?_
  rw [Buf.get_slice, Buf.get_slice, get_blobOf body csum (by omega)]

@[simp] theorem blobBody_blobOf (body : Buf 39) (csum : Buf 4) : blobBody (blobOf body csum) = body := by
  rw [blobBody, blobOf, Buf.slice_ofBytes (by omega), List.drop_zero, Buf.ofBytes_bytes_append]

@[simp] theorem blobCsum_blobOf (body : Buf 39) (csum : Buf 4) : blobCsum (blobOf body csum) = csum := by
  rw [blobCsum, blobOf, Buf.slice_ofBytes (by omega), List.drop_left' (Buf.length_bytes body), Buf.ofBytes_bytes]

section Blob

variable (flag : Byte) (salt : Buf 4) (eh1 eh2 : Buf 16) (csum : Buf 4)

@[simp] theorem blobVersion0_blobOf_frame39 : blobVersion0 (blobOf (frame39 flag salt eh1 eh2) csum) = version0 :=
  (get_blobOf _ _ (by omega)).trans (get_frame39_version0 flag salt eh1 eh2)

@[simp] theorem blobVersion1_blobOf_frame39 : blobVersion1 (blobOf (frame39 flag salt eh1 eh2) csum) = version1 :=
  (get_blobOf _ _ (by omega)).trans (get_frame39_version1 flag salt eh1 eh2)

@[simp] theorem blobFlag_blobOf_frame39 : blobFlag (blobOf (frame39 flag salt eh1 eh2) csum) = flag :=
  (get_blobOf _ _ (by omega)).trans (get_frame39_flag flag salt eh1 eh2)

@[simp] theorem blobSalt_blobOf_frame39 : blobSalt (blobOf (frame39 flag salt eh1 eh2) csum) = salt :=
  (slice_blobOf _ _ (by omega)).trans (slice_frame39_salt flag salt eh1 eh2)

@[simp] theorem blobHalf1_blobOf_frame39 : blobHalf1 (blobOf (frame39 flag salt eh1 eh2) csum) = eh1 :=
  (slice_blobOf _ _ (by omega)).trans (slice_frame39_eh1 flag salt eh1 eh2)

@[simp] theorem blobHalf2_blobOf_frame39 : blobHalf2 (blobOf (frame39 flag salt eh1 eh2) csum) = eh2 :=
  (slice_blobOf _ _ (by omega)).trans (slice_frame39_eh2 flag salt eh1 eh2)

end Blob

/-- Settles O57: the fields are at their offsets by definition, and FRAME39 put them there. -/
theorem deframeUndoesFrame : Obligations.DeframeUndoesFrame := by
  refine ⟨fun _ => rfl, fun flag salt eh1 eh2 csum => ?_⟩
  simp [deframe43, version0, version1]

end Machine
end Sys2Proof
end

section
/-! SUPPORT. What the collaborators' ports answer, and the port trace at reset (R120, R129 to R136). -/

namespace Sys2Proof.Machine

/-- What B58DEC43 answers, as bytes: Reject for the empty string, else what the port gives (R136). -/
theorem map_bytes_base58Decode (C : Capabilities) (str : Bytes) :
    (base58Decode C str).map Buf.bytes = if str = [] then none else (C.b58dec43 str).map Buf.bytes :=
  apply_ite (Option.map Buf.bytes) (str = []) none (C.b58dec43 str)

/-- Settles O18: each of the six meanings is the record of its answer (`State.answered`). -/
theorem collaboratorPortsAnswer : Obligations.CollaboratorPortsAnswer := fun s _ _ text =>
  ⟨rfl, rfl, rfl, rfl, rfl,
    congrArg (fun r => Host.Outcome.next (s.answered ⟨0b10000, [text]⟩ r))
      (map_bytes_base58Decode Config.attached text)⟩

/-- Settles O54: the trace is empty at reset. -/
theorem traceInvariantAtReset : Obligations.TraceInvariantAtReset := fun _ => .of_nil rfl

end Sys2Proof.Machine
end

section
/-! SUPPORT. DEC undoes ENC on ports that keep R124 and R137 (R215). -/

namespace Sys2Proof.Machine

variable {C : Capabilities}

theorem compOfFlag_flagByte (comp : Bool) : compOfFlag (flagByte comp) = some comp := by cases comp <;> decide

/-- A 32-byte key is its two halves put together. -/
theorem join16_halves (key : Buf 32) : join16 (Buf.slice key 0 16) (Buf.slice key 16 16) = key := by
  refine Buf.ext_get fun i hi => ?_
  rw [join16, Buf.get_ofBytes, if_pos hi]
  by_cases h : i < 16
  · rw [List.getD_append _ _ _ _ (by simpa), Buf.getD_bytes, Buf.get_slice, if_pos h, Nat.zero_add]
  · rw [List.getD_append_right _ _ _ _ (by simpa using h), Buf.getD_bytes, Buf.length_bytes, Buf.get_slice,
      if_pos (by omega), Nat.add_sub_cancel' (by omega)]

section EncBlob

variable (C : Capabilities) (key : Buf 32) (comp : Bool) (pass pub : Bytes)

/-- The BLOB of ENC passes the checksum test of D_CSUM (R194). -/
theorem csum4_blobBody_encBlob :
    csum4 C (blobBody (encBlob C key comp pass pub)) = blobCsum (encBlob C key comp pass pub) := by
  simp [encBlob]

/-- The BLOB of ENC passes the version test of D_MODE (R196). -/
theorem versionOk_encBlob : versionOk (encBlob C key comp pass pub) = true := by
  simp [versionOk, encBlob, encBody]

theorem blobFlag_encBlob : blobFlag (encBlob C key comp pass pub) = flagByte comp := by
  simp [encBlob, encBody]

theorem blobSalt_encBlob : blobSalt (encBlob C key comp pass pub) = pubHash C comp pub := by
  simp [encBlob, encBody]

/-- The BLOB of ENC is one of those R137 speaks of: its first byte is not 0x00. -/
theorem get_encBlob_zero_ne : Buf.get (encBlob C key comp pass pub) 0 ≠ 0x00 := by
  have h : blobVersion0 (encBlob C key comp pass pub) = version0 := by simp [encBlob, encBody]
  rw [← blobVersion0, h]
  decide

end EncBlob

/-- With a passphrase of the same NFC8 image, the masks and the AES key are those of ENC, and what they did is undone
(R124, R140). -/
theorem candidateKey_encBlob (haes : aesContract C) (key : Buf 32) (comp : Bool) {pass pass2 : Bytes} (pub : Bytes)
    (hpass : normalise C pass2 = normalise C pass) :
    candidateKey C (encBlob C key comp pass pub) pass2 = key := by
  obtain ⟨hdec, _⟩ := haes
  simp [candidateKey, encBlob, encBody, hpass, hdec, join16_halves]

/-- DEC accepts the BLOB of ENC and gives back the key and the flag (R190, R215). -/
theorem decBlob_encBlob (haes : aesContract C) {key : Buf 32} (comp : Bool) {pass pass2 pub : Bytes}
    (hpub : C.ecpub key = some pub) (hpass : normalise C pass2 = normalise C pass) :
    decBlob C (encBlob C key comp pass pub) pass2 = .ok (key, comp) := by
  have hflag : compOfFlag (blobFlag (encBlob C key comp pass pub)) = some comp := by
    rw [blobFlag_encBlob, compOfFlag_flagByte]
  rw [decBlob_of_checks (csum4_blobBody_encBlob C key comp pass pub) (versionOk_encBlob C key comp pass pub) hflag,
    candidateKey_encBlob haes key comp pub hpass, blobSalt_encBlob]
  simp [verifyKey, hpub]

/-- ENC's function answers the text of its BLOB when every port is attached and the key is valid (R160). -/
theorem encFunction_of_valid {key : Buf 32} {pub : Bytes} (hcap : C.cap = Config.capAll) (hpub : C.ecpub key = some pub)
    (comp : Bool) (pass : Bytes) :
    encFunction C key comp pass = .ok (textBytes (C.b58enc (encBlob C key comp pass pub))) := by
  simp [encFunction, hcap, hpub]

/-- DEC's function undoes ENC's (R215). -/
theorem decFunction_text_encBlob (haes : aesContract C) (hb58 : base58Contract C) (hcap : C.cap = Config.capAll)
    {key : Buf 32} (comp : Bool) {pass pass2 pub : Bytes} (hpub : C.ecpub key = some pub)
    (hpass : normalise C pass2 = normalise C pass) :
    decFunction C (textBytes (C.b58enc (encBlob C key comp pass pub))).length
      (textBytes (C.b58enc (encBlob C key comp pass pub))) pass2 = .ok (key, comp) := by
  have hlen := length_textBytes_le (C.b58enc (encBlob C key comp pass pub))
  have hblob := hb58 _ (get_encBlob_zero_ne C key comp pass pub)
  simp [decFunction, hcap, Nat.not_lt.mpr hlen, hblob, decBlob_encBlob haes comp hpub hpass]

/-! ### From ESTR_OUT to ESTR_IN (R25, R29) -/

/-- The host has copied ESTR_OUT and OUT_ELEN of a completed ENC into the string operand of DEC. -/
def State.handedBack (s : State) (out : ClassOut) : State :=
  { s with cin := { s.cin with estrIn := out.estrOut, elenIn := out.outElen } }

section HandedBack

variable (s : State) {str : Bytes} (trace : List PortEvent) (host : HostSide)

theorem elenIn_handedBack (h : str.length ≤ 64) :
    (s.handedBack (encOutcome (.ok str) trace host).cout).cin.elenIn.toNat = str.length :=
  (BitVec.toNat_ofNat str.length 8).trans (Nat.mod_eq_of_lt (by omega))

/-- The string operand is the string ENC left, whole. -/
theorem encrypted_handedBack (h : str.length ≤ 64) :
    (s.handedBack (encOutcome (.ok str) trace host).cout).encrypted = str := by
  rw [State.encrypted, elenIn_handedBack s trace host h]
  exact Buf.take_bytes_ofBytes h

/-- DEC on the string ENC left computes its function of that string and its own passphrase. -/
theorem runWith_dec_handedBack {s : State} (C : Capabilities) (hs : aboutToCommand s 0x02) (h : str.length ≤ 64) :
    runWith C 17 (s.handedBack (encOutcome (.ok str) trace host).cout) = .next
      (decOutcome (decFunction C str.length str s.passphrase) (events C (decRequests C str.length str s.passphrase))
        { agenda := [], reads := s.host.reads }) := by
  have hrun := runWith_dec_outcome (s := s.handedBack (encOutcome (.ok str) trace host).cout) C hs
  rw [elenIn_handedBack s trace host h, encrypted_handedBack s trace host h] at hrun
  exact hrun

end HandedBack

/-- Settles O37: both runs end with the results of the functions of R160 and R190, and the second undoes the first. -/
theorem roundTripRecoversKey : Obligations.RoundTripRecoversKey := by
  intro C s s2 pub haes hb58 hcap hpub h h2 hpass
  have henc := runWith_enc_outcome C h
  rw [encFunction_of_valid hcap hpub] at henc
  have hdec trace host := runWith_dec_handedBack trace host C h2
    (length_textBytes_le (C.b58enc (encBlob C s.cin.keyIn s.compIn s.passphrase pub)))
  simp only [decFunction_text_encBlob haes hb58 hcap s.compIn hpub hpass] at hdec
  exact ⟨_, _, henc, rfl, rfl, hdec _ _, rfl, rfl, rfl, rfl⟩

end Sys2Proof.Machine
end

section
/-! SUPPORT. What ENC and DEC hand to SCRYPT: the SCRYPT requests of a whole command, and what the port trace shows of
them (R127, R163, R168, R198, R199). -/

namespace Sys2Proof.Machine

variable {C : Capabilities} {password : Bytes} {salt : Buf 4}

/-! ### The SCRYPT requests of both commands (R160, R190) -/

theorem scrypt_notMem_compRequests (comp : Bool) (pub : Bytes) :
    Instr.scrypt password salt ∉ compRequests comp pub := by
  cases comp <;> simp [compRequests]

theorem scrypt_mem_encPubRequests (key : Buf 32) (comp : Bool) (pass pub : Bytes) :
    .scrypt password salt ∈ encPubRequests C key comp pass pub ↔
      password = normalise C pass ∧ salt = pubHash C comp pub := by
  simp [encPubRequests, scrypt_notMem_compRequests, addrHash_encodedPub]

/-- ENC asks SCRYPT once the key is accepted, with the normalised passphrase (R164, R168). -/
theorem scrypt_mem_encRequests (key : Buf 32) (comp : Bool) (pass : Bytes) :
    .scrypt password salt ∈ encRequests C key comp pass ↔
      C.cap = Config.capAll ∧
        ∃ pub, C.ecpub key = some pub ∧ password = normalise C pass ∧ salt = pubHash C comp pub := by
  by_cases hcap : C.cap = Config.capAll
  case neg => simp [encRequests, hcap]
  cases hkey : C.ecpub key with
  | none => simp [encRequests, hcap, hkey]
  | some pub => simp [encRequests, hcap, hkey, scrypt_mem_encPubRequests]

/-- After the candidate key is known SCRYPT is asked no more. -/
theorem scrypt_notMem_verifyRequests (key : Buf 32) (comp : Bool) :
    Instr.scrypt password salt ∉ verifyRequests C key comp := by
  cases hkey : C.ecpub key <;> simp [verifyRequests, hkey, scrypt_notMem_compRequests]

theorem scrypt_mem_decKeyRequests (blob : Buf 43) (pass : Bytes) (comp : Bool) :
    .scrypt password salt ∈ decKeyRequests C blob pass comp ↔ password = normalise C pass ∧ salt = blobSalt blob := by
  simp [decKeyRequests, scrypt_notMem_verifyRequests]

/-- The checks a BLOB passes before DEC asks SCRYPT (R194, R196). -/
def BlobChecked (C : Capabilities) (blob : Buf 43) : Prop :=
  csum4 C (blobBody blob) = blobCsum blob ∧ versionOk blob = true ∧ (compOfFlag (blobFlag blob)).isSome

theorem scrypt_mem_decBlobRequests (blob : Buf 43) (pass : Bytes) :
    .scrypt password salt ∈ decBlobRequests C blob pass ↔
      BlobChecked C blob ∧ password = normalise C pass ∧ salt = blobSalt blob := by
  by_cases hcsum : csum4 C (blobBody blob) = blobCsum blob
  case neg => simp [decBlobRequests, BlobChecked, hcsum]
  cases hversion : versionOk blob
  case false => simp [decBlobRequests, BlobChecked, hversion]
  cases hflag : compOfFlag (blobFlag blob) with
  | none => simp [decBlobRequests, BlobChecked, hflag]
  | some comp => simp [decBlobRequests, BlobChecked, hcsum, hversion, hflag, scrypt_mem_decKeyRequests]

/-- DEC asks SCRYPT once its string has decoded to a BLOB that passes the checks, with the normalised passphrase (R198,
R199). -/
theorem scrypt_mem_decRequests (elen : Nat) (str pass : Bytes) :
    .scrypt password salt ∈ decRequests C elen str pass ↔
      C.cap = Config.capAll ∧ elen ≤ 64 ∧
        ∃ blob, base58Decode C str = some blob ∧ BlobChecked C blob ∧
          password = normalise C pass ∧ salt = blobSalt blob := by
  by_cases hcap : C.cap = Config.capAll
  case neg => simp [decRequests, hcap]
  by_cases helen : 64 < elen
  case pos => simp [decRequests, hcap, helen]
  cases hblob : base58Decode C str with
  | none => simp [decRequests, hcap, helen, hblob]
  | some blob => simp [decRequests, hcap, helen, hblob, Nat.le_of_not_lt helen, scrypt_mem_decBlobRequests]

/-! ### A command that succeeds has asked SCRYPT -/

theorem encFunction_ok {key : Buf 32} {comp : Bool} {pass str : Bytes} (h : encFunction C key comp pass = .ok str) :
    C.cap = Config.capAll ∧ ∃ pub, C.ecpub key = some pub := by
  by_cases hcap : C.cap = Config.capAll
  case neg => simp [encFunction, hcap] at h
  cases hkey : C.ecpub key with
  | none => simp [encFunction, hcap, hkey] at h
  | some pub => exact ⟨hcap, pub, rfl⟩

theorem blobChecked_of_decBlob_ok {blob : Buf 43} {pass : Bytes} {r : Buf 32 × Bool}
    (h : decBlob C blob pass = .ok r) : BlobChecked C blob := by
  by_cases hcsum : csum4 C (blobBody blob) = blobCsum blob
  case neg => simp [decBlob, hcsum] at h
  cases hversion : versionOk blob
  case false => simp [decBlob, hcsum, hversion] at h
  cases hflag : compOfFlag (blobFlag blob) with
  | none => simp [decBlob, hcsum, hversion, hflag] at h
  | some comp => exact ⟨hcsum, hversion, by rw [hflag]; rfl⟩

theorem decFunction_ok {elen : Nat} {str pass : Bytes} {r : Buf 32 × Bool} (h : decFunction C elen str pass = .ok r) :
    C.cap = Config.capAll ∧ elen ≤ 64 ∧ ∃ blob, base58Decode C str = some blob ∧ decBlob C blob pass = .ok r := by
  by_cases hcap : C.cap = Config.capAll
  case neg => simp [decFunction, hcap] at h
  by_cases helen : 64 < elen
  case pos => simp [decFunction, hcap, helen] at h
  cases hblob : base58Decode C str with
  | none => simp [decFunction, hcap, helen, hblob] at h
  | some blob => exact ⟨hcap, Nat.le_of_not_lt helen, blob, rfl, by simpa [decFunction, hcap, helen, hblob] using h⟩

theorem encOutcome_done {r : Except ErrorKind Bytes} {trace : List PortEvent} {host : HostSide}
    (h : (encOutcome r trace host).status = 0x02) : ∃ str, r = .ok str := by
  cases r with
  | error e => exact absurd h (show statusError ≠ 0x02 by decide)
  | ok str => exact ⟨str, rfl⟩

theorem decOutcome_done {r : Except ErrorKind (Buf 32 × Bool)} {trace : List PortEvent} {host : HostSide}
    (h : (decOutcome r trace host).status = 0x02) : ∃ result, r = .ok result := by
  cases r with
  | error e => exact absurd h (show statusError ≠ 0x02 by decide)
  | ok result => exact ⟨result, rfl⟩

theorem encOutcome_trace (r : Except ErrorKind Bytes) (trace : List PortEvent) (host : HostSide) :
    (encOutcome r trace host).trace = trace := by
  cases r <;> rfl

theorem decOutcome_trace (r : Except ErrorKind (Buf 32 × Bool)) (trace : List PortEvent) (host : HostSide) :
    (decOutcome r trace host).trace = trace := by
  cases r <;> rfl

/-! ### The port trace (R120) -/

/-- Every SCRYPT entry of the trace records one of the SCRYPT requests, with its true answer at N = 16384 and r = p = 8
(R7, R127). -/
theorem scrypt_of_mem_events {requests : List Instr} {e : PortEvent} (he : e ∈ events C requests)
    (hsel : e.request.selector = 0b00100) :
    ∃ password salt, .scrypt password salt ∈ requests ∧ e.request = ⟨0b00100, [password, Buf.bytes salt]⟩ ∧
      e.answer = some (Buf.bytes (C.scrypt 16384 8 8 password salt)) := by
  obtain ⟨i, hi, he⟩ := List.mem_flatMap.mp he
  cases i with
  | scrypt password salt =>
    obtain rfl := List.mem_singleton.mp he
    exact ⟨password, salt, hi, rfl, rfl⟩
  | _ => simp_all [eventOf, encode, portAnswer]

/-- What the trace of a command shows of SCRYPT, given what the command's requests say of it. -/
theorem scrypt_in_trace {t : State} {requests : List Instr} {np : Bytes} (htrace : t.trace = events C requests)
    (hdone : t.status = 0x02 → ∃ salt, .scrypt np salt ∈ requests)
    (honly : ∀ password salt, .scrypt password salt ∈ requests → password = np) :
    (t.status = 0x02 → 0b00100 ∈ t.selectors) ∧
      ∀ e ∈ t.trace, e.request.selector = 0b00100 →
        ∃ salt : Buf 4, e.request = ⟨0b00100, [np, Buf.bytes salt]⟩ ∧
          e.answer = some (Buf.bytes (C.scrypt 16384 8 8 np salt)) := by
  refine ⟨fun hstatus => ?asked, fun e he hsel => ?answered⟩
  case asked =>
    obtain ⟨salt, hmem⟩ := hdone hstatus
    rw [State.selectors, htrace, selectors_events]
    exact List.mem_flatMap.mpr ⟨_, hmem, List.mem_singleton.mpr rfl⟩
  case answered =>
    rw [htrace] at he
    obtain ⟨password, salt, hmem, hrequest, hanswer⟩ := scrypt_of_mem_events he hsel
    obtain rfl := honly password salt hmem
    exact ⟨salt, hrequest, hanswer⟩

/-- Settles O59, command by command: the port trace is that of the command's requests, and SCRYPT is among them with
the normalised passphrase alone. -/
theorem scryptGetsNormalisedPassphrase : Obligations.ScryptGetsNormalisedPassphrase := by
  intro C s v hv h
  refine ⟨fun hplen => ?empty, fun hascii hpass => hascii _ hpass, ?run⟩
  case empty => rw [passphrase_eq_nil.mpr hplen, normalise_nil]
  case run =>
    obtain rfl | rfl := hv
    case inl =>
      refine ⟨_, runWith_enc_outcome C h, scrypt_in_trace (encOutcome_trace _ _ _) (fun hstatus => ?_)
        fun password salt hmem => ?_⟩
      · obtain ⟨str, hstr⟩ := encOutcome_done hstatus
        obtain ⟨hcap, pub, hpub⟩ := encFunction_ok hstr
        exact ⟨_, (scrypt_mem_encRequests _ _ _).mpr ⟨hcap, pub, hpub, rfl, rfl⟩⟩
      · obtain ⟨_, _, _, hpassword, _⟩ := (scrypt_mem_encRequests _ _ _).mp hmem
        exact hpassword
    case inr =>
      refine ⟨_, runWith_dec_outcome C h, scrypt_in_trace (decOutcome_trace _ _ _) (fun hstatus => ?_)
        fun password salt hmem => ?_⟩
      · obtain ⟨result, hresult⟩ := decOutcome_done hstatus
        obtain ⟨hcap, helen, blob, hblob, hdec⟩ := decFunction_ok hresult
        exact ⟨_, (scrypt_mem_decRequests _ _ _).mpr
          ⟨hcap, helen, blob, hblob, blobChecked_of_decBlob_ok hdec, rfl, rfl⟩⟩
      · obtain ⟨_, _, _, _, _, hpassword, _⟩ := (scrypt_mem_decRequests _ _ _).mp hmem
        exact hpassword

end Sys2Proof.Machine
end

section
/-! SUPPORT. The phases of ENC as steps of the chip (R161 to R176): the chip's step is a turn over its own parameters,
and each turn is one equation. -/

namespace Sys2Proof.Machine

variable {C : Capabilities} {s t : State}

/-- Left to itself, the chip takes a turn of the sequencer over its own parameters. -/
theorem step_of_turn (hagenda : s.host.agenda = []) (hturn : turn Config.attached s = t) : step s = .next t := by
  rw [← stepWith_attached, stepWith_eq_turn hagenda, hturn]

/-- The NFC8 image of the passphrase operand, by PLEN (R129, R163). -/
theorem normalise_passphrase (C : Capabilities) (s : State) :
    normalise C s.passphrase = if s.cin.plen = 0x00 then [] else C.nfc8 s.passphrase := by
  simp only [normalise, passphrase_eq_nil]

theorem turn_eNorm_plen (h : s.cint.phase = .eNorm) :
    turn C s =
      let np := if s.cin.plen = 0x00 then [] else C.nfc8 s.passphrase
      { s with
        cint := { s.cint with np := np, phase := .ePub, resp := none }
        trace := s.trace ++ [⟨⟨0b00110, [s.passphrase]⟩, some np⟩] } := by
  rw [turn_eNorm h, events_singleton (i := .nfc8 s.passphrase) rfl rfl, normalise_passphrase]

theorem turn_ePub_invalid (h : s.cint.phase = .ePub) (hkey : C.ecpub s.cin.keyIn = none) :
    turn C s =
      State.raise { s with trace := s.trace ++ [⟨⟨0b01000, [Buf.bytes s.cin.keyIn]⟩, none⟩] } .invalidKeyFormat := by
  rw [turn_ePub h, events_singleton (i := .ecpub s.cin.keyIn) rfl rfl, hkey]

theorem turn_ePub_valid {pub : Bytes} (h : s.cint.phase = .ePub) (hkey : C.ecpub s.cin.keyIn = some pub) :
    turn C s =
      { s with
        cint := { s.cint with pub := pub, phase := .eComp, resp := none }
        trace := s.trace ++ [⟨⟨0b01000, [Buf.bytes s.cin.keyIn]⟩, some pub⟩] } := by
  rw [turn_ePub h, events_singleton (i := .ecpub s.cin.keyIn) rfl rfl, hkey]

theorem turn_eComp_compressed (h : s.cint.phase = .eComp) (hcomp : s.cint.comp = true) :
    turn C s =
      { s with
        cint := { s.cint with pub := C.eccomp s.cint.pub, phase := .eAddr, resp := none }
        trace := s.trace ++ [⟨⟨0b01010, [s.cint.pub]⟩, some (C.eccomp s.cint.pub)⟩] } := by
  rw [turn_eComp h, compRequests, encodedPub, if_pos hcomp, if_pos hcomp,
    events_singleton (i := .eccomp s.cint.pub) rfl rfl]

theorem turn_eComp_uncompressed (h : s.cint.phase = .eComp) (hcomp : ¬ s.cint.comp = true) :
    turn C s = { s with cint := { s.cint with phase := .eAddr, resp := none } } := by
  rw [turn_eComp h, compRequests, encodedPub, if_neg hcomp, if_neg hcomp, events_nil, List.append_nil]

/-- Settles O26, phase by phase: E_PUB by the port's answer, E_COMP by COMP. -/
theorem encPhasesStartToSalt : Obligations.EncPhasesStartToSalt := by
  intro s hagenda
  refine ⟨fun h => step_of_turn hagenda (turn_eStart h), fun h => step_of_turn hagenda (turn_eFlag h),
    fun h => step_of_turn hagenda (turn_eNorm_plen h), fun h => step_of_turn hagenda ?pub,
    fun h => step_of_turn hagenda ?comp, fun h => step_of_turn hagenda (turn_eAddr h),
    fun h => step_of_turn hagenda (turn_eSalt h)⟩
  case pub =>
    cases hkey : Config.ecpub s.cin.keyIn with
    | none => exact turn_ePub_invalid h hkey
    | some pub => exact turn_ePub_valid h hkey
  case comp =>
    split
    case isTrue hcomp => exact turn_eComp_compressed h hcomp
    case isFalse hcomp => exact turn_eComp_uncompressed h hcomp

/-- Settles O27: no phase from E_KDF on can fail, and each clause is the equation of the phase's turn at the chip's
parameters. -/
theorem encPhasesKdfToDone : Obligations.EncPhasesKdfToDone := fun _ hagenda =>
  ⟨fun h => step_of_turn hagenda (turn_eKdf h), fun h => step_of_turn hagenda (turn_eXor1 h),
    fun h => step_of_turn hagenda (turn_eAes1 h), fun h => step_of_turn hagenda (turn_eXor2 h),
    fun h => step_of_turn hagenda (turn_eAes2 h), fun h => step_of_turn hagenda (turn_eFrame h),
    fun h => step_of_turn hagenda (turn_eCsum h), fun h => step_of_turn hagenda (turn_eB58 h),
    fun h => step_of_turn hagenda (turn_eDone h)⟩

end Sys2Proof.Machine
end

section
/-! SUPPORT. ENC undoes DEC on ports that keep R124 (R218): a BLOB that DEC accepts is the one ENC builds from what DEC
gave back. -/

namespace Sys2Proof

/-- Two slices that meet are one slice. -/
theorem Buf.bytes_slice_append {n : Nat} (v : Buf n) (off len len' : Nat) :
    Buf.bytes (Buf.slice v off len) ++ Buf.bytes (Buf.slice v (off + len) len') =
      Buf.bytes (Buf.slice v off (len + len')) := by
  simp [Buf.bytes, Buf.slice, Vector.toList_ofFn, List.ofFn_add, Nat.add_assoc]

@[simp] theorem Buf.slice_all {n : Nat} (v : Buf n) : Buf.slice v 0 n = v :=
  Buf.ext_get fun i hi => by rw [Buf.get_slice, if_pos hi, Nat.zero_add]

namespace Machine

variable {C : Capabilities}

/-! ### A BLOB and a key are made of their fields (R96, R97, R141) -/

theorem blobOf_body_csum (blob : Buf 43) : blobOf (blobBody blob) (blobCsum blob) = blob := by
  have h := Buf.bytes_slice_append blob 0 39 4
  rw [blobOf, blobBody, blobCsum, h, Buf.ofBytes_bytes, Buf.slice_all]

/-- The first three bytes of a BLOB whose version bytes pass the test of D_MODE (R196). -/
theorem header_of_versionOk {blob : Buf 43} (h : versionOk blob = true) :
    [version0, version1, blobFlag blob] = Buf.bytes (Buf.slice blob 0 3) := by
  obtain ⟨h0, h1⟩ : blobVersion0 blob = version0 ∧ blobVersion1 blob = version1 := by simpa [versionOk] using h
  rw [← h0, ← h1]
  rfl

/-- FRAME39 of a BLOB's own fields is its BODY (R96, R142). -/
theorem frame39_fields {blob : Buf 43} (h : versionOk blob = true) :
    frame39 (blobFlag blob) (blobSalt blob) (blobHalf1 blob) (blobHalf2 blob) = blobBody blob := by
  have hsalt := Buf.bytes_slice_append blob 0 3 4
  have hhalf1 := Buf.bytes_slice_append blob 0 7 16
  have hhalf2 := Buf.bytes_slice_append blob 0 23 16
  rw [frame39, header_of_versionOk h, blobSalt, blobHalf1, blobHalf2, hsalt, hhalf1, hhalf2, Buf.ofBytes_bytes]
  rfl

@[simp] theorem slice_join16_first (a b : Buf 16) : Buf.slice (join16 a b) 0 16 = a := by
  rw [join16, Buf.slice_ofBytes (by omega), List.drop_zero, Buf.ofBytes_bytes_append]

@[simp] theorem slice_join16_second (a b : Buf 16) : Buf.slice (join16 a b) 16 16 = b := by
  rw [join16, Buf.slice_ofBytes (by omega), List.drop_left' (Buf.length_bytes a), Buf.ofBytes_bytes]

/-! ### What DEC accepted (R208) -/

theorem verifyKey_ok {key key' : Buf 32} {comp comp' : Bool} {salt : Buf 4}
    (h : verifyKey C key comp salt = .ok (key', comp')) :
    key = key' ∧ comp = comp' ∧ ∃ pub, C.ecpub key = some pub ∧ pubHash C comp pub = salt := by
  cases hkey : C.ecpub key with
  | none => simp [verifyKey, hkey] at h
  | some pub =>
    by_cases hhash : pubHash C comp pub = salt
    case neg => simp [verifyKey, hkey, hhash] at h
    obtain ⟨hk, hc⟩ : key = key' ∧ comp = comp' := by simpa [verifyKey, hkey, hhash] using h
    exact ⟨hk, hc, pub, rfl, hhash⟩

/-- An accepted BLOB has passed the checks, and its key and flag are the ones recovered from it, the key's address-hash
being the BLOB's (R194, R196, R208). -/
theorem decBlob_ok {blob : Buf 43} {pass : Bytes} {key : Buf 32} {comp : Bool}
    (h : decBlob C blob pass = .ok (key, comp)) :
    csum4 C (blobBody blob) = blobCsum blob ∧ versionOk blob = true ∧ blobFlag blob = flagByte comp ∧
      candidateKey C blob pass = key ∧ ∃ pub, C.ecpub key = some pub ∧ pubHash C comp pub = blobSalt blob := by
  obtain ⟨hcsum, hversion, hflag⟩ := blobChecked_of_decBlob_ok h
  obtain ⟨comp', hflag⟩ := Option.isSome_iff_exists.mp hflag
  rw [decBlob_of_checks hcsum hversion hflag] at h
  obtain ⟨rfl, rfl, pub, hpub, hhash⟩ := verifyKey_ok h
  exact ⟨hcsum, hversion, flagByte_of_compOfFlag hflag, rfl, pub, hpub, hhash⟩

/-! ### ENC of what DEC gave back (R218) -/

/-- With the salt of the BLOB, ENC encrypts each half of the candidate key to the half DEC decrypted (R124, R140). -/
theorem encBody_candidateKey (haes : aesContract C) {blob : Buf 43} {comp : Bool} {pub : Bytes} (pass : Bytes)
    (hhash : pubHash C comp pub = blobSalt blob) :
    encBody C (candidateKey C blob pass) comp pass pub =
      frame39 (flagByte comp) (blobSalt blob) (blobHalf1 blob) (blobHalf2 blob) := by
  obtain ⟨_, henc⟩ := haes
  simp [encBody, candidateKey, hhash, henc]

/-- ENC rebuilds an accepted BLOB (R160, R190, R208). -/
theorem encBlob_of_decBlob_ok (haes : aesContract C) {blob : Buf 43} {pass : Bytes} {key : Buf 32} {comp : Bool}
    (h : decBlob C blob pass = .ok (key, comp)) :
    ∃ pub, C.ecpub key = some pub ∧ encBlob C key comp pass pub = blob := by
  obtain ⟨hcsum, hversion, hflag, rfl, pub, hpub, hhash⟩ := decBlob_ok h
  have hbody : encBody C (candidateKey C blob pass) comp pass pub = blobBody blob := by
    rw [encBody_candidateKey haes pass hhash, ← hflag, frame39_fields hversion]
  refine ⟨pub, hpub, ?_⟩
  rw [encBlob, hbody, hcsum, blobOf_body_csum]

/-- Settles O38: both runs end with the results of the functions of R160 and R190, and the second rebuilds the BLOB of
the first. -/
theorem reEncryptionRebuildsBlob : Obligations.ReEncryptionRebuildsBlob := by
  intro C s s2 blob key comp haes h h2 hblob hdec hkey hcomp hpass
  obtain ⟨hcap, -, blob', hblob', hok⟩ := decFunction_ok hdec
  obtain rfl : blob = blob' := Option.some.inj (hblob.symm.trans hblob')
  obtain ⟨pub, hpub, henc⟩ := encBlob_of_decBlob_ok haes hok
  have hrun := runWith_dec_outcome C h
  have hrun2 := runWith_enc_outcome C h2
  rw [hdec] at hrun
  rw [hkey, hcomp, hpass, encFunction_of_valid hcap hpub, henc] at hrun2
  exact ⟨_, _, hrun, rfl, rfl, rfl, hrun2, rfl, rfl, rfl, rfl⟩

/-! ### Passphrases of one NFC8 image (R163, R198, R217) -/

section SameImage

variable {pass pass2 : Bytes}

theorem encFunction_of_normalise_eq (hpass : normalise C pass2 = normalise C pass) (key : Buf 32) (comp : Bool) :
    encFunction C key comp pass2 = encFunction C key comp pass := by
  have hbody (pub : Bytes) : encBody C key comp pass2 pub = encBody C key comp pass pub := by
    rw [encBody, hpass, encBody]
  simp only [encFunction, encBlob, hbody]

theorem decFunction_of_normalise_eq (hpass : normalise C pass2 = normalise C pass) (elen : Nat) (str : Bytes) :
    decFunction C elen str pass2 = decFunction C elen str pass := by
  have hkey (blob : Buf 43) : candidateKey C blob pass2 = candidateKey C blob pass := by
    rw [candidateKey, hpass, candidateKey]
  simp only [decFunction, decBlob, hkey]

end SameImage

/-- Settles O39, command by command: both runs end with the result of the command's one function, which takes the
passphrase through NFC8 alone. -/
theorem normalisedPassphrasesEquivalent : Obligations.NormalisedPassphrasesEquivalent := by
  intro C s s2 v hv h h2 hkey hcomp helen hstr hpass
  obtain rfl | rfl := hv
  case inl =>
    refine ⟨_, _, runWith_enc_outcome C h, runWith_enc_outcome C h2, ?_⟩
    rw [hkey, hcomp, encFunction_of_normalise_eq hpass]
    obtain ⟨-, hout, hstatus, herr, -⟩ := sameBlock_encOutcome _ _ _ _ _
    exact ⟨hout, hstatus, herr⟩
  case inr =>
    refine ⟨_, _, runWith_dec_outcome C h, runWith_dec_outcome C h2, ?_⟩
    rw [helen, hstr, decFunction_of_normalise_eq hpass]
    obtain ⟨-, hout, hstatus, herr, -⟩ := sameBlock_decOutcome _ _ _ _ _
    exact ⟨hout, hstatus, herr⟩

end Machine
end Sys2Proof
end

section
/-! SUPPORT. The phases of DEC as steps of the chip (R191 to R209): each turn of the sequencer, with its checks said of
the registers themselves. -/

namespace Sys2Proof.Machine

variable {C : Capabilities} {s : State}

/-! ### The checks of D_MODE (R98, R99, R196) -/

theorem versionOk_iff (blob : Buf 43) : versionOk blob = true ↔ blob[0] = 0x01 ∧ blob[1] = 0x42 := by
  simp [versionOk, blobVersion0, blobVersion1, version0, version1, Buf.get]

theorem blobFlag_eq (blob : Buf 43) : blobFlag blob = blob[2] := Buf.get_eq_getElem blob (by omega)

/-- A flag byte that names no mode is neither of the two (R98). -/
theorem compOfFlag_eq_none {b : Byte} (hu : b ≠ flagUncompressed) (hc : b ≠ flagCompressed) : compOfFlag b = none := by
  rw [compOfFlag, if_neg hu, if_neg hc]

theorem turn_dMode_settled {comp : Bool} (h : s.cint.phase = .dMode)
    (hversion : s.cint.blob[0] = 0x01 ∧ s.cint.blob[1] = 0x42) (hflag : s.cint.blob[2] = flagByte comp) :
    turn C s =
      { s with cint := { s.cint with flagb := flagByte comp, comp := comp, phase := .dSplit, resp := none } } := by
  rw [turn_dMode h, if_pos ((versionOk_iff _).mpr hversion), blobFlag_eq, hflag, compOfFlag_flagByte]

theorem turn_dMode_badFlag (h : s.cint.phase = .dMode) (hu : s.cint.blob[2] ≠ flagUncompressed)
    (hc : s.cint.blob[2] ≠ flagCompressed) : turn C s = s.raise .unsupportedMode := by
  rw [turn_dMode h, blobFlag_eq, compOfFlag_eq_none hu hc]
  exact ite_self _

theorem turn_dMode_badVersion (h : s.cint.phase = .dMode)
    (hversion : ¬ (s.cint.blob[0] = 0x01 ∧ s.cint.blob[1] = 0x42)) : turn C s = s.raise .unsupportedMode := by
  rw [turn_dMode h, if_neg (mt (versionOk_iff _).mp hversion)]

/-! ### D_START to D_KDF (R191 to R199) -/

theorem turn_dB58_rejected (h : s.cint.phase = .dB58) (hlen : ¬ 64 < s.cin.elenIn.toNat)
    (hblob : base58Decode C s.encrypted = none) :
    turn C s = State.raise { s with trace := s.trace ++ [⟨⟨0b10000, [s.encrypted]⟩, none⟩] } .malformedCiphertext := by
  rw [turn_dB58_asked h (decide_eq_false hlen), events_singleton (i := .b58dec43 s.encrypted) rfl rfl, hblob]
  rfl

theorem turn_dB58_decoded {blob : Buf 43} (h : s.cint.phase = .dB58) (hlen : ¬ 64 < s.cin.elenIn.toNat)
    (hblob : base58Decode C s.encrypted = some blob) :
    turn C s =
      { s with
        cint := { s.cint with blob := blob, phase := .dCsum, resp := none }
        trace := s.trace ++ [⟨⟨0b10000, [s.encrypted]⟩, some (Buf.bytes blob)⟩] } := by
  rw [turn_dB58_asked h (decide_eq_false hlen), events_singleton (i := .b58dec43 s.encrypted) rfl rfl, hblob]
  rfl

theorem turn_dNorm_plen (h : s.cint.phase = .dNorm) :
    turn C s =
      let np := if s.cin.plen = 0x00 then [] else C.nfc8 s.passphrase
      { s with
        cint := { s.cint with np := np, phase := .dKdf, resp := none }
        trace := s.trace ++ [⟨⟨0b00110, [s.passphrase]⟩, some np⟩] } := by
  rw [turn_dNorm h, events_singleton (i := .nfc8 s.passphrase) rfl rfl, normalise_passphrase]

/-- Settles O28, phase by phase: D_B58 by the length and the port's answer, D_MODE by the version and flag bytes. -/
theorem decPhasesStartToKdf : Obligations.DecPhasesStartToKdf := by
  intro s hagenda
  refine ⟨fun h => step_of_turn hagenda (turn_dStart h), fun h => step_of_turn hagenda ?decode,
    fun h => step_of_turn hagenda (turn_dCsum h), fun h => step_of_turn hagenda ?mode,
    fun h => step_of_turn hagenda (turn_dSplit h), fun h => step_of_turn hagenda (turn_dNorm_plen h),
    fun h => step_of_turn hagenda (turn_dKdf h)⟩
  case decode =>
    split
    case isTrue hlong => exact turn_dB58_tooLong h (decide_eq_true hlong)
    case isFalse hlen =>
      cases hblob : base58Decode Config.attached s.encrypted with
      | none => exact turn_dB58_rejected h hlen hblob
      | some blob => exact turn_dB58_decoded h hlen hblob
  case mode =>
    split
    case isFalse hversion => exact turn_dMode_badVersion h hversion
    case isTrue hversion =>
      split
      case isTrue hflag => exact turn_dMode_settled (comp := false) h hversion hflag
      case isFalse huncompressed =>
        split
        case isTrue hflag => exact turn_dMode_settled (comp := true) h hversion hflag
        case isFalse hcompressed => exact turn_dMode_badFlag h huncompressed hcompressed

/-! ### D_AES1 to D_DONE (R200 to R209) -/

theorem turn_dPub_invalid (h : s.cint.phase = .dPub) (hkey : C.ecpub s.cint.k = none) :
    turn C s =
      State.raise { s with trace := s.trace ++ [⟨⟨0b01000, [Buf.bytes s.cint.k]⟩, none⟩] } .wrongPassphrase := by
  rw [turn_dPub h, events_singleton (i := .ecpub s.cint.k) rfl rfl, hkey]

theorem turn_dPub_valid {pub : Bytes} (h : s.cint.phase = .dPub) (hkey : C.ecpub s.cint.k = some pub) :
    turn C s =
      { s with
        cint := { s.cint with pub := pub, phase := .dComp, resp := none }
        trace := s.trace ++ [⟨⟨0b01000, [Buf.bytes s.cint.k]⟩, some pub⟩] } := by
  rw [turn_dPub h, events_singleton (i := .ecpub s.cint.k) rfl rfl, hkey]

theorem turn_dComp_compressed (h : s.cint.phase = .dComp) (hcomp : s.cint.comp = true) :
    turn C s =
      { s with
        cint := { s.cint with pub := C.eccomp s.cint.pub, phase := .dAddr, resp := none }
        trace := s.trace ++ [⟨⟨0b01010, [s.cint.pub]⟩, some (C.eccomp s.cint.pub)⟩] } := by
  rw [turn_dComp h, compRequests, encodedPub, if_pos hcomp, if_pos hcomp,
    events_singleton (i := .eccomp s.cint.pub) rfl rfl]

theorem turn_dComp_uncompressed (h : s.cint.phase = .dComp) (hcomp : ¬ s.cint.comp = true) :
    turn C s = { s with cint := { s.cint with phase := .dAddr, resp := none } } := by
  rw [turn_dComp h, compRequests, encodedPub, if_neg hcomp, if_neg hcomp, events_nil, List.append_nil]

/-- Settles O29, phase by phase: D_PUB by the port's answer, D_COMP by COMP. -/
theorem decPhasesAesToDone : Obligations.DecPhasesAesToDone := by
  intro s hagenda
  refine ⟨fun h => step_of_turn hagenda (turn_dAes1 h), fun h => step_of_turn hagenda (turn_dXor1 h),
    fun h => step_of_turn hagenda (turn_dAes2 h), fun h => step_of_turn hagenda (turn_dXor2 h),
    fun h => step_of_turn hagenda ?pub, fun h => step_of_turn hagenda ?comp,
    fun h => step_of_turn hagenda (turn_dAddr h), fun h => step_of_turn hagenda (turn_dVerify h),
    fun h => step_of_turn hagenda (turn_dDone h)⟩
  case pub =>
    cases hkey : Config.ecpub s.cint.k with
    | none => exact turn_dPub_invalid h hkey
    | some pub => exact turn_dPub_valid h hkey
  case comp =>
    split
    case isTrue hcomp => exact turn_dComp_compressed h hcomp
    case isFalse hcomp => exact turn_dComp_uncompressed h hcomp

end Sys2Proof.Machine
end

section
/-! SUPPORT. How DEC ends (R190): with an error, which ports it has asked by then (R195); without one, what has been
verified (R208, R216); and what becomes of a DEC with no string loaded (R193, R300). -/

namespace Sys2Proof.Machine

variable {C : Capabilities} {blob : Buf 43} {pass : Bytes} {e : ErrorKind}

/-! ### The errors of DEC before the passphrase is used (R194, R196) -/

/-- The verification of a candidate key fails in one way only (R205, R208). -/
theorem verifyKey_error {key : Buf 32} {comp : Bool} {salt : Buf 4} (h : verifyKey C key comp salt = .error e) :
    e = .wrongPassphrase := by
  cases hkey : C.ecpub key with
  | none => simpa [verifyKey, hkey, eq_comm] using h
  | some pub =>
    by_cases hhash : pubHash C comp pub = salt
    case pos => simp [verifyKey, hkey, hhash] at h
    case neg => simpa [verifyKey, hkey, hhash, eq_comm] using h

/-- A BLOB that passes the checks can only fail by its passphrase. -/
theorem BlobChecked.decBlob_error (hchecked : BlobChecked C blob) (h : decBlob C blob pass = .error e) :
    e = .wrongPassphrase := by
  obtain ⟨hcsum, hversion, hflag⟩ := hchecked
  obtain ⟨comp, hflag⟩ := Option.isSome_iff_exists.mp hflag
  rw [decBlob_of_checks hcsum hversion hflag] at h
  exact verifyKey_error h

/-- From the checksum on, DEC asks SHA256D alone for a BLOB that fails a check (R194, R196). -/
theorem decBlobSelectors_of_not_checked (h : ¬ BlobChecked C blob) : decBlobSelectors C blob pass = [0b00010] := by
  by_cases hcsum : csum4 C (blobBody blob) = blobCsum blob
  case neg => simp [decBlobSelectors, hcsum]
  cases hversion : versionOk blob
  case false => simp [decBlobSelectors, hversion]
  have hflag : compOfFlag (blobFlag blob) = none := by simpa [BlobChecked, hcsum, hversion] using h
  simp [decBlobSelectors, hflag]

/-- DEC asks at most B58DEC43 and SHA256D before it ends with an error other than WrongPassphrase (R195). -/
theorem decSelectors_of_error {elen : Nat} {str : Bytes} (h : decFunction C elen str pass = .error e)
    (he : e ≠ .wrongPassphrase) :
    decSelectors C elen str pass = [] ∨ decSelectors C elen str pass = [0b10000] ∨
      decSelectors C elen str pass = [0b10000, 0b00010] := by
  by_cases hcap : C.cap = Config.capAll
  case neg => exact .inl (by simp [decSelectors, hcap])
  by_cases helen : 64 < elen
  case pos => exact .inl (by simp [decSelectors, helen])
  cases hblob : base58Decode C str with
  | none => exact .inr (.inl (by simp [decSelectors, hcap, helen, hblob]))
  | some blob =>
    have herror : decBlob C blob pass = .error e := by simpa [decFunction, hcap, helen, hblob] using h
    have hfailed : ¬ BlobChecked C blob := fun hchecked => he (hchecked.decBlob_error herror)
    exact .inr (.inr (by simp [decSelectors, hcap, helen, hblob, decBlobSelectors_of_not_checked hfailed]))

/-! ### The ports a DEC has asked when it ends with an error (R195) -/

section Outcome

variable (trace : List PortEvent) (host : HostSide)

theorem decOutcome_ok_errcode (result : Buf 32 × Bool) : (decOutcome (.ok result) trace host).errcode = 0x00 := rfl

theorem decOutcome_error_errcode (e : ErrorKind) : (decOutcome (.error e) trace host).errcode = e.code := rfl

end Outcome

theorem ne_wrongPassphrase_of_code (h : e.code = 0x02 ∨ e.code = 0x04 ∨ e.code = 0x05) : e ≠ .wrongPassphrase := by
  rintro rfl
  exact absurd h (by decide)

/-- Settles O42: the selectors of a run are those of R190, and its error that of the one function. -/
theorem noScryptBeforeChecks : Obligations.NoScryptBeforeChecks := by
  intro C s h
  obtain ⟨trace, hrun, hselectors⟩ := decRunsItsFunction C s h
  refine ⟨_, hrun, fun herrcode => ?_⟩
  rw [State.selectors, decOutcome_trace, hselectors]
  cases hresult : decFunction C s.cin.elenIn.toNat s.encrypted s.passphrase with
  | ok result =>
    rw [hresult, decOutcome_ok_errcode] at herrcode
    exact absurd herrcode (by decide)
  | error e =>
    rw [hresult, decOutcome_error_errcode] at herrcode
    exact decSelectors_of_error hresult (ne_wrongPassphrase_of_code herrcode)

/-! ### What an accepted key has shown (R208, R216) -/

/-- Settles O43, by the result of the one function of R190: an error leaves class OUT zero, and a key given back has
passed the verification of D_VERIFY. -/
theorem acceptedKeyHasMatchingHash : Obligations.AcceptedKeyHasMatchingHash := by
  intro C s h
  have hrun := runWith_dec_outcome C h
  cases hresult : decFunction C s.cin.elenIn.toNat s.encrypted s.passphrase with
  | error e =>
    rw [hresult] at hrun
    exact ⟨_, hrun, .inr rfl, fun _ => rfl, fun hdone => absurd hdone (show statusError ≠ 0x02 by decide)⟩
  | ok result =>
    obtain ⟨key, comp⟩ := result
    rw [hresult] at hrun
    obtain ⟨-, -, blob, hblob, hdec⟩ := decFunction_ok hresult
    obtain ⟨-, -, hflag, -, pub, hpub, hhash⟩ := decBlob_ok hdec
    have hmode : compOfFlag (blobFlag blob) = some comp := by rw [hflag, compOfFlag_flagByte]
    exact ⟨_, hrun, .inl rfl, fun herr => absurd herr (show statusDone ≠ 0x06 by decide),
      fun _ => ⟨blob, pub, comp, hblob, hmode, rfl, hpub, hhash⟩⟩

/-! ### No string loaded (R193, R300) -/

theorem encrypted_of_elenIn_zero {s : State} (h : s.cin.elenIn = 0x00) : s.encrypted = [] := by
  rw [State.encrypted, h]
  rfl

/-- No port decodes the empty string (R136), so that DEC gets no BLOB from it (R193). -/
theorem decFunction_empty (C : Capabilities) (pass : Bytes) :
    decFunction C 0 [] pass =
      .error (if C.cap = Config.capAll then .malformedCiphertext else .capabilityUnavailable) := by
  by_cases hcap : C.cap = Config.capAll <;> simp [decFunction, base58Decode, hcap]

/-- Settles O44: the function of R190 at the empty string, its error by the strap. -/
theorem forgottenStringIsMalformed : Obligations.ForgottenStringIsMalformed := by
  intro C s h helen
  have hrun := runWith_dec_outcome C h
  rw [encrypted_of_elenIn_zero helen, helen, show (0x00 : Byte).toNat = 0 from rfl, decFunction_empty] at hrun
  exact ⟨_, hrun, rfl, rfl, apply_ite ErrorKind.code _ _ _⟩

end Sys2Proof.Machine
end

section
/-! SUPPORT. The control commands: CLR, which is reset but for the host's own side (R232, R293), and the seven ILLEGAL
rows, which share one effect whatever their byte (R233, R262). -/

namespace Sys2Proof.Machine

/-- Settles O7: CLR is a command whose effect is `State.toReset`. -/
theorem clrRestoresReset : Obligations.ClrRestoresReset := fun _ hbusy =>
  onCommand_idle hbusy State.toReset

/-- The start actions and then `raise IllegalCommand` set every field but the host's side: the operands and the port
trace of the command before do not survive (R91, R233, R262). -/
theorem illegalCommand_eq (s : State) :
    s.illegalCommand =
      { cin := ClassIn.zero, cout := ClassOut.zero, status := statusError, errcode := ErrorKind.illegalCommand.code
        cint := ClassInt.zero, trace := [], host := s.host } := rfl

/-- Settles O8: each of the seven rows is a command whose effect is `State.illegalCommand`. -/
theorem illegalCommandsComplete : Obligations.IllegalCommandsComplete := by
  intro s v hbusy done
  have hdone : s.onCommand State.illegalCommand = done :=
    (onCommand_idle hbusy State.illegalCommand).trans (congrArg Host.Outcome.next (illegalCommand_eq s))
  exact ⟨hdone, hdone, hdone, hdone, hdone, hdone, hdone⟩

end Sys2Proof.Machine
end

section
/-! SUPPORT. Completion with error, this hardware's exception (R250, R262). -/

namespace Sys2Proof.Machine

/-- Of the state before, `raise` keeps the port trace and the host's side alone; of the error kind, only the code
stays (R262). -/
theorem raise_eq (s : State) (e : ErrorKind) :
    s.raise e =
      { cin := ClassIn.zero, cout := ClassOut.zero, status := statusError, errcode := e.code
        cint := ClassInt.zero, trace := s.trace, host := s.host } := rfl

/-- Settles O24: the record `raise` leaves, its code read from the table of R250 error kind by error kind. -/
theorem raiseClearsEverything : Obligations.RaiseClearsEverything := by
  intro s e
  rw [raise_eq]
  cases e <;> rfl

end Sys2Proof.Machine
end

section
/-! SUPPORT. The reset input, sampled between steps (R290, R292). -/

namespace Sys2Proof.Machine

/-- Of the state before, a reset taken off the agenda keeps the host's side alone: its later events and the bytes it has
read (R290). -/
theorem toReset_withAgenda (s : State) (rest : List HostEvent) :
    (s.withAgenda rest).toReset = { State.reset with host := { agenda := rest, reads := s.host.reads } } := rfl

/-- Settles O22: the chip's step is the machine's over the attached ports, and a reset event there neither decodes an
instruction nor gives the sequencer its turn. -/
theorem resetEventClearsBlock : Obligations.ResetEventClearsBlock := fun s rest hagenda =>
  calc step s
    _ = stepWith Config.attached s := (stepWith_attached s).symm
    _ = .next (s.withAgenda rest).toReset := stepWith_reset hagenda
    _ = .next { State.reset with host := { agenda := rest, reads := s.host.reads } } :=
      congrArg _ (toReset_withAgenda s rest)

end Sys2Proof.Machine
end
